-- ==== Sys2Proof/Word.lean ====
section
/-! DEFINITION. Word.lean: the bit-vector words of the ZK6024 (00_ section 0.7) and the bay numbers. -/

namespace Sys2Proof

/-- A byte of a bay line or of a station frame. -/
abbrev Byte := BitVec 8

/-- The 16-bit tag of a request, an answer or an exchange (R99, R161). -/
abbrev Tag := BitVec 16

/-- A seating number: 16 bits, wrapping from 65535 to 0 (R2). -/
abbrev SeatingNumber := BitVec 16

/-- A sequence token: 8 bits, written on the bay line as two hex digits (R72). -/
abbrev Token := BitVec 8

/-- A raw code of a sense ADC, signed, −32768 to 32767 (R24). -/
abbrev RawCode := BitVec 16

/-- A bay set as frames carry it: bay `b` is bit `b mod 8` of byte `b div 8`, that is bit `b` of the
24-bit little-endian number (Table 0.5). -/
abbrev BaySet := BitVec 24

/-- A bay number, 0 to 23. Bays at or above the bay count are absent (Table 0.5). -/
abbrev BayId := Fin 24

end Sys2Proof
end

