-- ==== Sys2Proof/Config.lean ====
section
/-! DEFINITION. Config.lean: what the part fixes for good: its identity, its capacities and its fixed
times. The manual leaves no value of this kind open, so nothing here is opaque. -/

namespace Sys2Proof.Config

/-- Vendor code (Table 10.6). -/
def vendorCode : Nat := 0x56B1
/-- Part code (Table 10.6). -/
def partCode : Nat := 0x6024
/-- Revision (Table 10.6). -/
def revision : Nat := 1
/-- Places of one bay's step queue (R103, Table 10.6). -/
def stepPlaces : Nat := 4
/-- Records of the exchange table (R99, Table 10.6). -/
def exchangeRecords : Nat := 32
/-- Batch entries of the Collation Buffer (R125, Table 10.6). -/
def batchEntries : Nat := 8
/-- Entries of the Group Table (R90, Table 10.6). -/
def groupEntries : Nat := 16
/-- Lines of the log ring (R157, Table 10.6). -/
def logLines : Nat := 64
/-- Most bytes of a text (Table 10.6). -/
def textBytes : Nat := 120
/-- Bytes of an uplink line that the assembler stores (R75). -/
def storedBytes : Nat := 124
/-- Places of the answer queue (R166). -/
def answerPlaces : Nat := 4
/-- Most pairs of a pin list that has a meaning (R86). -/
def pinPairs : Nat := 24
/-- Longest body of a request (R161). -/
def requestBody : Nat := 512
/-- Shortest body of a frame: kind and tag (R161). -/
def leastBody : Nat := 3
/-- The sync byte of every frame (R161). -/
def syncByte : Byte := 0xC3
/-- Initial value of the frame check (R162). -/
def crcInitial : BitVec 16 := 0x5A3C
/-- Generator polynomial of the frame check without its top term (R162). -/
def crcPolynomial : BitVec 16 := 0x1021

/-- Removal timer (R3), ms. -/
def removalMs : Nat := 10
/-- Rise timer (R9), ms. -/
def riseMs : Nat := 50
/-- Brownout trip timer (Table 1.6), ms. -/
def brownoutTripMs : Nat := 2
/-- Line timer of the uplink assembler (R76), ms. -/
def lineMs : Nat := 500
/-- Gap timer of the receiver (R165), ms. -/
def gapMs : Nat := 20
/-- Where the boot timer holds (R13), ms. -/
def bootTimerMost : Nat := 600000
/-- Where an entry's age holds (R133), ms. -/
def ageMost : Nat := 5000
/-- Greatest elapsed_ms of a result (R114), ms. -/
def elapsedMost : Nat := 960000

/-- Least current a sample can carry (R26), CU. -/
def currentLeast : Int := -16384000
/-- Greatest current a sample can carry (R26), CU. -/
def currentMost : Int := 16383500
/-- Greatest rms (R49), CU. -/
def rmsMost : Nat := 16384000
/-- Up-switch threshold on a LOW sample's adjusted code (R29). -/
def upSwitchCode : Int := 30000
/-- Greatest adjusted code of a HIGH sample that counts towards a down-switch (R30). -/
def downSwitchCode : Int := 48
/-- Consecutive HIGH samples that make a down-switch (R30). -/
def downSwitchCount : Nat := 64
/-- CU of one code in the HIGH range (Table 2.1). -/
def highScale : Int := 500
/-- Limit of the calibration offsets either side of 0 (R37). -/
def offsetLimit : Int := 512
/-- Discarded periods of each calibration phase pair (Table 2.6). -/
def calibrationBlank : Nat := 2
/-- Summed periods of each calibration phase pair (Table 2.6). -/
def calibrationSum : Nat := 256

end Sys2Proof.Config
end

