-- ==== Sys2Proof/Syntax.lean ====
section
/-! DEFINITION. Syntax.lean: the commands of the ZK6024, one constructor for each row of
spec/opcode_table.json, in the table's order. A request carries the tag and the payload bytes of its
frame (Table 11.1), so that every form of Tables 11.4 to 11.7, a malformed one too, can be sent. -/

namespace Sys2Proof

/-- The two windows that a Measurement Unit accumulates (chapter 3). -/
inductive WindowKind where
  | monitor
  | exchange
deriving DecidableEq, Repr

/-- Why the receiver discards a whole inbound frame (R163, R164). -/
inductive DiscardCause where
  /-- The frame's check does not match (R164). -/
  | checkMismatch
  /-- The frame's length, given by its two length bytes in the order received, is out of range (R163). -/
  | lengthOutOfRange (l0 l1 : Byte)
deriving DecidableEq, Repr

/-- The commands. A bay operand says at whose block the event is taken. -/
inductive Instr where
  | sensorCloses (b : BayId)
  | sensorOpens (b : BayId)
  | seatDebounceExpiry (b : BayId)
  | removalTimerExpiry (b : BayId)
  | outputGood (b : BayId)
  | limitEngaged (b : BayId)
  | limitReleased (b : BayId)
  | belowBrownout (b : BayId)
  | aboveBrownout (b : BayId)
  | riseTimerExpiry (b : BayId)
  | keyTimerExpiry (b : BayId)
  | bootDeadlineExpiry (b : BayId)
  | limitTripTimerExpiry (b : BayId)
  | brownoutTripTimerExpiry (b : BayId)
  | powerOn (tag : Tag) (payload : List Byte)
  | powerOff (tag : Tag) (payload : List Byte)
  | zero (tag : Tag) (payload : List Byte)
  | calibrationEnd (b : BayId)
  | configureBay (tag : Tag) (payload : List Byte)
  | defineGroup (tag : Tag) (payload : List Byte)
  | dropGroups (tag : Tag) (payload : List Byte)
  | send (tag : Tag) (payload : List Byte)
  | cancel (tag : Tag) (payload : List Byte)
  | sync (tag : Tag) (payload : List Byte)
  | queryBay (tag : Tag) (payload : List Byte)
  | ackAttention (tag : Tag) (payload : List Byte)
  | identify (tag : Tag) (payload : List Byte)
  | configureStation (tag : Tag) (payload : List Byte)
  | resetStation (tag : Tag) (payload : List Byte)
  | unknownKindRequest (kind : Byte) (tag : Tag) (payload : List Byte)
  | periodBoundary (b : BayId) (code : RawCode)
  | windowCompletion (b : BayId) (which : WindowKind)
  | settleTimerExpiry (b : BayId)
  | uplinkByte (b : BayId) (x : Byte)
  | framingFault (b : BayId)
  | lineTimerExpiry (b : BayId)
  | downlinkEndOfTransmission (b : BayId)
  | stepDispatch (b : BayId)
  | replyDeadlineExpiry (b : BayId)
  | windowDelayExpiry (b : BayId)
  | batchAgeTick
  | takeAnswer
  | heldFrameTaken
  | takeAttentionNotice
  | takeBatchEntry
  | takeLogLine
  | batchEndOfTransmission
  | heldResultPlacement
  | parkedRequestCompletion
  | attentionEndOfTransmission
  | frameEndOfTransmission
  | frameDiscarded (cause : DiscardCause)
  | gapTimerExpiry
  | usbBusReset
  | powerOnReset (strap1 strap2 : Bool)
  | byteTakenFromPipe (x : Byte)
deriving DecidableEq, Repr

end Sys2Proof
end

