-- ==== Sys2Proof/Decode.lean ====
section
/-! DEFINITION. Decode.lean: the command that a word spells, and the readings of a frame's header bytes
that the well-formedness checks and the receiver share. The ZK6024 is a block that takes commands;
spec/opcode_table.json gives none of its rows any bits ("fields" is empty in every row), so no word
spells a command. -/

namespace Sys2Proof

/-- The command spelled by a word of `nbits` bits: none, since no row of the table has bits. -/
def decodeTableWord (_nbits _w : Nat) : Option Instr := none

/-- The kind codes 0x01 to 0x0E are the fourteen request kinds (Table 11.2). -/
def isRequestKind (kind : Byte) : Bool := 1 ≤ kind.toNat && kind.toNat ≤ 14

/-- A frame body is kind, tag and payload, and a request's body has at most 512 bytes (R161). -/
def payloadFits (payload : List Byte) : Bool := payload.length + 3 ≤ Config.requestBody

/-- The body length that two length bytes give, little-endian (R161). -/
def lengthOf (l0 l1 : Byte) : Nat := l0.toNat + 256 * l1.toNat

/-- The receiver accepts body lengths of 3 to 512 (R163). -/
def lengthInRange (n : Nat) : Bool := Config.leastBody ≤ n && n ≤ Config.requestBody

end Sys2Proof
end

