-- ==== Sys2Proof/Machine/State.lean ====
section
/-! DEFINITION. Machine/State.lean: every piece of state the manual gives the ZK6024, as plain data, and
the machine right after power-on reset. Each structure names the section that lists its state. -/

namespace Sys2Proof.Machine

/-! ## Why a step stops -/

/-- The reasons the machine stops with a fault. There are none: the manual names no condition that
stops the part; its errors are statuses, counts and flags, which are effects on the state. -/
inductive Fault where
deriving DecidableEq, Repr

/-- The reasons a command has no meaning. -/
inductive Refusal where
  /-- Raised by the dispatcher for a command whose meaning is not written yet; safe, since it stops
  the run. No arm raises it. -/
  | notModelled (mnemonic : String)
deriving DecidableEq, Repr

/-! ## Timers -/

/-- A running timer: the length it was started with and the milliseconds left (section 0.7). -/
structure Timer where
  length : Nat
  left   : Nat
deriving DecidableEq, Repr

/-! ## Seat and power (chapter 1) -/

/-- Seat states (Table 1.1). -/
inductive Seat where
  | vacant
  | seating
  | seated
deriving DecidableEq, Repr

/-- Power states (Table 1.2); `none` is NONE, the state of a bay that is not SEATED. -/
inductive Power where
  | none
  | off
  | powering
  | booting
  | on
  | tripped
deriving DecidableEq, Repr

/-- Variant of a power-up (R8). -/
inductive Variant where
  | plain
  | recovery
deriving DecidableEq, Repr

/-- Trip causes (Table 1.6). -/
inductive TripCause where
  | limit
  | brownout
  | riseFail
deriving DecidableEq, Repr

/-- The Bay Supply of one bay (Table 0.1, R6): output state, the set points it holds the output at,
and its two conditions. -/
structure Supply where
  on            : Bool
  setMv         : Nat
  limitMa       : Nat
  brownoutMv    : Nat
  limitEngaged  : Bool
  belowBrownout : Bool
deriving DecidableEq, Repr

/-! ## Bay parameters (Table 6.6) -/

/-- The three bay line rates (R69). -/
inductive LinkRate where
  | r115200
  | r460800
  | r921600
deriving DecidableEq, Repr

/-- range_mode (R28). -/
inductive RangeMode where
  | auto
  | low
  | high
deriving DecidableEq, Repr

/-- The eighteen parameters that CONFIGURE_BAY writes (Table 6.6). -/
structure Params where
  supplyMv        : Nat
  limitMa         : Nat
  tripMs          : Nat
  brownoutMv      : Nat
  keyMs           : Nat
  bootDeadlineMs  : Nat
  replyDeadlineMs : Nat
  extendLimit     : Nat
  linkRate        : LinkRate
  rangeMode       : RangeMode
  settleMs        : Nat
  settleOnChanges : Bool
  monitorOn       : Bool
  monitorWindow   : Nat
  monitorLo       : Int
  monitorHi       : Int
  monitorCount    : Nat
  logForward      : Bool
deriving DecidableEq, Repr

/-- The reset values of Table 6.6 (R98). -/
def Params.reset : Params :=
  { supplyMv := 3850, limitMa := 3000, tripMs := 20, brownoutMv := 3300, keyMs := 1200,
    bootDeadlineMs := 45000, replyDeadlineMs := 2000, extendLimit := 3, linkRate := .r115200,
    rangeMode := .auto, settleMs := 50, settleOnChanges := true, monitorOn := false,
    monitorWindow := 1000, monitorLo := 0, monitorHi := 16383500, monitorCount := 4,
    logForward := false }

/-! ## Windows (chapter 3) -/

/-- Accumulator states (section 3.1). -/
inductive AccState where
  | free
  | starting
  | running
deriving DecidableEq, Repr

/-- From where an exchange window's delay is counted (Table 7.2). -/
inductive Anchor where
  | atSend
  | atReply
deriving DecidableEq, Repr

/-- An exchange window specification (Tables 3.3 and 7.2). -/
structure WindowSpec where
  anchor      : Anchor
  delayMs     : Nat
  length      : Nat
  lo          : Int
  hi          : Int
  peakCeiling : Option Int
  rmsCeiling  : Option Nat
deriving DecidableEq, Repr

/-- A window accumulator (section 3.1); `spec` is used by the exchange accumulator only. -/
structure Accumulator where
  state    : AccState
  length   : Nat
  elapsed  : Nat
  n        : Nat
  blanked  : Nat
  clipped  : Nat
  switches : Nat
  s1       : Int
  s2       : Nat
  min      : Option Int
  max      : Option Int
  settling : Bool
  spec     : Option WindowSpec
deriving DecidableEq, Repr

/-- A FREE accumulator with every field 0 (R46). -/
def Accumulator.cleared : Accumulator :=
  { state := .free, length := 0, elapsed := 0, n := 0, blanked := 0, clipped := 0, switches := 0,
    s1 := 0, s2 := 0, min := none, max := none, settling := false, spec := none }

/-- The verdict field of a window summary: an exchange-window verdict (R53, R54) or a monitor
outcome (Table 4.2). -/
inductive Verdict where
  | pass
  | fail
  | aborted
  | notOpened
  | inband
  | low
  | high
  | suppressed
  | empty
deriving DecidableEq, Repr

/-- The reason set of a FAIL verdict (Table 3.4). -/
structure Reasons where
  low   : Bool
  high  : Bool
  peak  : Bool
  rms   : Bool
  empty : Bool
deriving DecidableEq, Repr

/-- The empty reason set. -/
def Reasons.none : Reasons :=
  { low := false, high := false, peak := false, rms := false, empty := false }

/-- The figures of a window summary (Table 3.2). -/
structure Figures where
  elapsed  : Nat
  n        : Nat
  blanked  : Nat
  clipped  : Nat
  switches : Nat
  mean     : Int
  rms      : Nat
  min      : Int
  max      : Int
  empty    : Bool
  settling : Bool
deriving DecidableEq, Repr

/-- A window summary (Table 3.2); the figures are absent for NOT_OPENED. -/
structure WindowSummary where
  verdict : Verdict
  reasons : Reasons
  length  : Nat
  figures : Option Figures
deriving DecidableEq, Repr

/-! ## The Measurement Unit (chapters 2 and 4) -/

/-- Sampling state of a Measurement Unit (section 2). -/
inductive Sampling where
  | idle
  | sampling
  | calibrating
deriving DecidableEq, Repr

/-- Sense ranges (Table 2.1). -/
inductive Range where
  | low
  | high
deriving DecidableEq, Repr

/-- Calibration phases (Table 2.6). -/
inductive CalPhase where
  | lowBlank
  | lowSum
  | highBlank
  | highSum
deriving DecidableEq, Repr

/-- A calibration record (R35): the phase, the periods ended within it, and the two sums. -/
structure Calibration where
  phase   : CalPhase
  count   : Nat
  lowSum  : Int
  highSum : Int
deriving DecidableEq, Repr

/-- Monitor states (R55). -/
inductive MonitorState where
  | stopped
  | watching
deriving DecidableEq, Repr

/-- The Measurement Unit of one bay. `wholePeriod` says that the period in progress began while the
unit was sampling or calibrating (R23, R35); `periodBlanked` and `periodSettle` are the blanked and
settle marks of that period (R27, R65). The stored range_mode is the bay parameter. -/
structure Mu where
  sampling      : Sampling
  range         : Range
  pendingRange  : Option RangeMode
  blanking      : Nat
  downCount     : Nat
  lowOffset     : Int
  highOffset    : Int
  calibration   : Option Calibration
  wholePeriod   : Bool
  periodBlanked : Bool
  periodSettle  : Bool
  settleTimer   : Option Timer
  monitorState  : MonitorState
  outOfBand     : Nat
  lastSummary   : Option WindowSummary
  monitorAcc    : Accumulator
  exchangeAcc   : Accumulator
deriving DecidableEq, Repr

/-- The Measurement Unit after power-on reset (R33, R39, R46, R62, R67). -/
def Mu.reset : Mu :=
  { sampling := .idle, range := .high, pendingRange := none, blanking := 0, downCount := 0,
    lowOffset := 0, highOffset := 0, calibration := none, wholePeriod := false,
    periodBlanked := false, periodSettle := false, settleTimer := none, monitorState := .stopped,
    outOfBand := 0, lastSummary := none, monitorAcc := .cleared, exchangeAcc := .cleared }

/-! ## The bay line (chapter 5) -/

/-- A line being assembled (section 5.3). -/
structure Assembly where
  stored  : List Byte
  discard : Bool
  broken  : Bool
  timer   : Timer
deriving DecidableEq, Repr

/-- The bay line of one bay: the rates, the transmitter (`none` is IDLE, `some line` SENDING), the
assembler (`none` is EMPTY), the CR-end mark and the two counts. -/
structure Line where
  txRate    : LinkRate
  rxRate    : LinkRate
  txPending : Option LinkRate
  rxPending : Option LinkRate
  sending   : Option (List Byte)
  assembly  : Option Assembly
  crEnd     : Bool
  stray     : Nat
  garbage   : Nat
deriving DecidableEq, Repr

/-- The bay line after either reset: both rates in use and both pending rates set from link_rate (R69),
transmitter IDLE, assembler EMPTY, counts 0 (R77, R85). DEDUCED, unsafe (log entry 5): the pending rates
stand until an event of the line or a link_rate takes them. -/
def Line.reset : Line :=
  { txRate := .r115200, rxRate := .r115200, txPending := some .r115200, rxPending := some .r115200,
    sending := none, assembly := none, crEnd := false, stray := 0, garbage := 0 }

/-! ## Steps (chapter 7) -/

/-- Outcomes of a final result (Table 7.7). -/
inductive Outcome where
  | ok
  | phoneError
  | timeout
  | cancelled
  | powerLost
  | removed
  | rebooted
deriving DecidableEq, Repr

/-- What the end of the reply phase records in a step (Table 7.5). -/
structure Reply where
  outcome   : Outcome
  text      : List Byte
  truncated : Bool
  elapsed   : Nat
deriving DecidableEq, Repr

/-- A step's deadline (Table 7.5). -/
inductive Deadline where
  | notStarted
  | running (t : Timer)
  | stopped
deriving DecidableEq, Repr

/-- A step's window state (Table 7.5). -/
inductive StepWindow where
  | none
  | scheduled
  | opened
  | done (summary : WindowSummary)
  | notOpened
deriving DecidableEq, Repr

/-- A step (Table 7.5). `clock` is the count of milliseconds since the end of transmission of its
line (R106); `token`, `replyDeadlineMs` and `extendLimit` are set at dispatch. -/
structure Step where
  tag             : Tag
  seating         : SeatingNumber
  token           : Token
  replyDeadlineMs : Nat
  extendLimit     : Nat
  deadline        : Deadline
  extensions      : Nat
  interimsDropped : Nat
  reply           : Option Reply
  clock           : Nat
  window          : StepWindow
deriving DecidableEq, Repr

/-- The flight slot (R103). -/
inductive Flight where
  | empty
  | step (st : Step)
  | held (tag : Tag)
deriving DecidableEq, Repr

/-- An occupied place of the step queue (R103): a queued step or a held result's tag. -/
inductive Place where
  | step (st : Step)
  | held (tag : Tag)
deriving DecidableEq, Repr

/-- Link states (Table 7.6). -/
inductive Link where
  | down
  | idle
  | sendingLine
  | awaiting
  | measuring
  | holding
deriving DecidableEq, Repr

/-! ## A bay -/

/-- One bay: its Bay Controller, Bay Supply and Measurement Unit. `places` lists the occupied places
of the step queue in queue order, at most four. -/
structure Bay where
  sensorClosed  : Bool
  seat          : Seat
  seating       : SeatingNumber
  power         : Power
  variant       : Variant
  earlyReady    : Bool
  bootTimer     : Option Nat
  bootTime      : Nat
  debounce      : Option Timer
  removal       : Option Timer
  rise          : Option Timer
  key           : Option Timer
  bootDeadline  : Option Timer
  limitTrip     : Option Timer
  brownoutTrip  : Option Timer
  lastBelow     : Bool
  outputGood    : Bool
  supply        : Supply
  powerKey      : Bool
  volumeKey     : Bool
  token         : Token
  link          : Link
  line          : Line
  flight        : Flight
  places        : List Place
  windowDelay   : Option Timer
  params        : Params
  mu            : Mu
deriving DecidableEq, Repr

/-- The Bay Supply after power-on reset: output off, conditions as R6 gives for an output that is
off, and the set points of the reset parameters (log entry 6). -/
def Supply.reset : Supply :=
  { on := false, setMv := 3850, limitMa := 3000, brownoutMv := 3300, limitEngaged := false,
    belowBrownout := true }

/-- A bay after power-on reset (Tables 1.8 and 7.10, R98), its seat sensor open. -/
def Bay.reset : Bay :=
  { sensorClosed := false, seat := .vacant, seating := 0, power := .none, variant := .plain,
    earlyReady := false, bootTimer := none, bootTime := 0, debounce := none, removal := none,
    rise := none, key := none, bootDeadline := none, limitTrip := none, brownoutTrip := none,
    lastBelow := true, outputGood := false, supply := .reset, powerKey := false,
    volumeKey := false, token := 0, link := .down, line := .reset, flight := .empty, places := [],
    windowDelay := none, params := .reset, mu := .reset }

/-! ## The Group Table (chapter 6) -/

/-- An entry of the Group Table. -/
structure Group where
  defined    : Bool
  bays       : BaySet
  persistent : Bool
deriving DecidableEq, Repr

/-- An undefined entry (R90). -/
def Group.undefined : Group := { defined := false, bays := 0, persistent := false }

/-! ## The exchange table (chapter 7) -/

/-- Exchange states (R99). -/
inductive ExchangeState where
  | opened
  | draining
deriving DecidableEq, Repr

/-- An exchange record (Table 7.1). -/
structure Exchange where
  tag           : Tag
  text          : List Byte
  target        : BaySet
  pending       : BaySet
  reported      : BaySet
  reportInterim : Bool
  window        : Option WindowSpec
  state         : ExchangeState
  cancelled     : Bool
deriving DecidableEq, Repr

/-! ## The Collation Buffer (chapter 8) -/

/-- Result kinds (Table 7.7). -/
inductive ResultKind where
  | interim
  | final
deriving DecidableEq, Repr

/-- A result record (Table 7.7). -/
structure Result where
  bay             : BayId
  seating         : SeatingNumber
  tag             : Tag
  kind            : ResultKind
  outcome         : Option Outcome
  truncated       : Bool
  extensions      : Nat
  interimsDropped : Nat
  elapsed         : Nat
  text            : List Byte
  window          : Option WindowSummary
deriving DecidableEq, Repr

/-- An occupied batch entry (section 8.1): OPEN, or SENDING once `sending` is set. `finalMark` is
decided at the taking (R134); `dropped` marks an entry that was SENDING at a station reset (R143). -/
structure Entry where
  tag       : Tag
  board     : Fin 3
  age       : Nat
  syncMark  : Bool
  queryMark : Bool
  sending   : Bool
  finalMark : Bool
  dropped   : Bool
  slots     : Vector (Option Result) 8
deriving DecidableEq, Repr

/-- The Collation Buffer. `entries` is the opening list, at most eight; the FREE entries are those
not in it. -/
structure Clb where
  entries   : List Entry
  hold      : List Result
  offer     : Bool
  markCount : Nat
  pressure  : Nat
  holdMs    : Nat
deriving DecidableEq, Repr

/-- The Collation Buffer after power-on reset (R144). -/
def Clb.reset : Clb :=
  { entries := [], hold := [], offer := false, markCount := 0, pressure := 3, holdMs := 25 }

/-! ## The Attention Unit (chapter 9) -/

/-- Attention classes, in class order (Table 9.1). -/
inductive AttClass where
  | seated
  | unseated
  | ready
  | bootTimeout
  | trip
  | reboot
  | phoneEvent
  | band
  | calibrated
deriving DecidableEq, Repr

/-- Flag states (Table 9.2). -/
inductive FlagState where
  | clear
  | raised
  | notifying
  | notified
deriving DecidableEq, Repr

/-- Class data (Table 9.1). -/
inductive ClassData where
  | none
  | live (mark : Bool)
  | bootTime (ms : Nat)
  | deadline (ms : Nat)
  | cause (c : TripCause)
  | steps (n : Nat)
  | event (truncated : Bool) (text : List Byte)
  | band (high : Bool) (mean : Int)
  | calibration (fault : Bool) (low high : Int)
deriving DecidableEq, Repr

/-- A flag record (Table 9.2). -/
structure Flag where
  state    : FlagState
  count    : Nat
  seating  : SeatingNumber
  data     : ClassData
  position : Nat
  queued   : Bool
deriving DecidableEq, Repr

/-- A CLEAR flag (R147). -/
def Flag.cleared : Flag :=
  { state := .clear, count := 0, seating := 0, data := .none, position := 0, queued := false }

/-- A log line (R157). -/
structure LogLine where
  bay       : BayId
  seating   : SeatingNumber
  truncated : Bool
  text      : List Byte
deriving DecidableEq, Repr

/-- The Attention Unit. `levels` is in class order; `nextPosition` is the model's counter of raise
positions (log entry 8). -/
structure Atu where
  levels       : Vector Nat 9
  threshold    : Nat
  flags        : Vector (Vector Flag 9) 24
  queue        : List (BayId × AttClass)
  ring         : List LogLine
  dropped      : Vector Nat 24
  nextPosition : Nat
deriving DecidableEq, Repr

/-- Reset levels in class order (Table 9.1). -/
def Atu.resetLevels : Vector Nat 9 := #v[1, 2, 2, 3, 3, 3, 1, 2, 1]

/-- The Attention Unit after power-on reset (R160). -/
def Atu.reset : Atu :=
  { levels := Atu.resetLevels, threshold := 4,
    flags := Vector.replicate 24 (Vector.replicate 9 .cleared), queue := [], ring := [],
    dropped := Vector.replicate 24 0, nextPosition := 0 }

/-! ## Answers (chapters 6, 10 and 11) -/

/-- Answer statuses (Table 11.3). -/
inductive Status where
  | ok
  | partialOk
  | noneAccepted
  | badFormat
  | badTag
  | unknownKind
  | badTarget
  | unknownGroup
  | tableFull
  | duplicateTag
  | unknownTag
  | badText
  | badWindow
  | busy
  | reset
deriving DecidableEq, Repr

/-- Per-bay reasons (Table 6.2). -/
inductive Reason where
  | stale
  | notSeated
  | alreadyOn
  | tripped
  | busy
  | powered
  | notReady
  | queueFull
deriving DecidableEq, Repr

/-- A verdict list (R89). -/
structure Verdicts where
  accepted : BaySet
  refused  : List (BayId × Reason)
deriving DecidableEq, Repr

/-- The values of the present parameters of a CONFIGURE_BAY, as carried or as applied (Table 11.6).
The link rate is in bit/s and range_mode is its code. -/
structure Settings where
  supplyMv        : Option Nat
  limitMa         : Option Nat
  tripMs          : Option Nat
  brownoutMv      : Option Nat
  keyMs           : Option Nat
  bootDeadlineMs  : Option Nat
  replyDeadlineMs : Option Nat
  extendLimit     : Option Nat
  linkRate        : Option Nat
  rangeMode       : Option Nat
  settleMs        : Option Nat
  settleOnChanges : Option Nat
  monitorOn       : Option Nat
  monitorWindow   : Option Nat
  monitorLo       : Option Int
  monitorHi       : Option Int
  monitorCount    : Option Nat
  logForward      : Option Nat
deriving DecidableEq, Repr

/-- What the answer to a CONFIGURE_BAY with a non-empty accepted set carries further (R93). -/
structure AppliedReport where
  applied         : Settings
  brownoutLowered : BaySet
  monitorHiRaised : BaySet
deriving DecidableEq, Repr

/-- The station parameters as CONFIGURE_STATION answers them (R174). -/
structure StationReport where
  threshold      : Nat
  levels         : Vector Nat 9
  pressure       : Nat
  holdMs         : Nat
  seatDebounceMs : Nat
deriving DecidableEq, Repr

/-- What a flight slot or a place shows in a QUERY_BAY answer (Table 11.3). -/
inductive SlotView where
  | empty
  | step (tag : Tag)
  | held (tag : Tag)
deriving DecidableEq, Repr

/-- One item of a QUERY_BAY result list, with the fields of R142 and Table 11.10. R51 has the summary of an
exchange window carried in QUERY_BAY answers too, and no field of the item holds it: the model follows
R142 (DESIGN CHOICE, unsafe; log entry 24). -/
structure ResultItem where
  tag     : Tag
  kind    : ResultKind
  outcome : Option Outcome
  inEntry : Bool
deriving DecidableEq, Repr

/-- One flag as QUERY_BAY shows it (R156). -/
structure FlagView where
  state   : FlagState
  count   : Nat
  seating : SeatingNumber
  data    : ClassData
deriving DecidableEq, Repr

/-- The content of a QUERY_BAY answer (Table 10.7). -/
structure BayReport where
  bay          : BayId
  seat         : Seat
  seating      : SeatingNumber
  power        : Power
  variant      : Variant
  bootTime     : Nat
  link         : Link
  token        : Token
  stray        : Nat
  garbage      : Nat
  flight       : SlotView
  places       : List SlotView
  heldResults  : Nat
  calibrating  : Bool
  lowOffset    : Int
  highOffset   : Int
  range        : Range
  rangeMode    : RangeMode
  monitorState : MonitorState
  outOfBand    : Nat
  monitorCount : Nat
  lastSummary  : Option WindowSummary
  flags        : List FlagView
  logDropped   : Nat
  results      : List ResultItem
deriving DecidableEq, Repr

/-- The content that follows an answer's status (Table 11.9). -/
inductive Content where
  | none
  | identity (bayCount : Nat)
  | station (r : StationReport)
  | verdicts (v : Verdicts)
  | configured (v : Verdicts) (r : AppliedReport)
  | group (number : Fin 16) (replaced : Bool)
  | dropped (groups : BitVec 16)
  | cancelCounts (queued inFlight measuring : Nat)
  | acknowledged (v : Verdicts) (held : List (BayId × AttClass))
  | bay (r : BayReport)
deriving DecidableEq, Repr

/-- A queued answer (R168). `kind` is the request's kind byte. -/
structure Answer where
  tag     : Tag
  kind    : Byte
  status  : Status
  content : Content
deriving DecidableEq, Repr

/-! ## The Station Link Controller (chapter 10) -/

/-- Receiver states (Table 10.1). -/
inductive RxState where
  | hunt
  | length
  | body
  | check
deriving DecidableEq, Repr

/-- The frame receiver (section 10.2). -/
structure Receiver where
  state       : RxState
  lengthBytes : List Byte
  length      : Nat
  body        : List Byte
  checkBytes  : List Byte
  gap         : Option Timer
  held        : Bool
deriving DecidableEq, Repr

/-- The receiver in HUNT (Table 10.8). -/
def Receiver.hunting : Receiver :=
  { state := .hunt, lengthBytes := [], length := 0, body := [], checkBytes := [], gap := none,
    held := false }

/-- The parked request (R169). -/
inductive Parked where
  | sync (tag : Tag)
  | query (tag : Tag) (b : BayId)
deriving DecidableEq, Repr

/-- The source of a frame on the outgoing pipe (R172). -/
inductive Source where
  | answer
  | attention (b : BayId) (c : AttClass)
  | batch
  | log
deriving DecidableEq, Repr

/-- A frame in transmission: its bytes, its source, and whether the port discards what is left of it
since a station link reset (R177). -/
structure Transmission where
  bytes      : List Byte
  source     : Source
  discarding : Bool
deriving DecidableEq, Repr

/-- The Station Link Controller. `answers` holds the queued answers in order; together with the place
of a parked request they are the claimed places. `transmitter` is `none` when FREE. -/
structure Slc where
  receiver      : Receiver
  framesDropped : Nat
  answers       : List Answer
  parked        : Option Parked
  transmitter   : Option Transmission
deriving DecidableEq, Repr

/-- The Station Link Controller after power-on reset (Table 10.8). -/
def Slc.reset : Slc :=
  { receiver := .hunting, framesDropped := 0, answers := [], parked := none, transmitter := none }

/-! ## The station -/

/-- The state of the ZK6024, and the queue of the commands that wait (the model's own field). -/
structure State where
  bayCount       : Nat
  seatDebounceMs : Nat
  bays           : Vector Bay 24
  groups         : Vector Group 16
  exchanges      : List Exchange
  clb            : Clb
  atu            : Atu
  slc            : Slc
  pending        : List Instr
deriving DecidableEq, Repr

/-- The machine right after power-on reset with both board straps present (log entry 2) and every
seat sensor open (log entry 4). -/
def State.reset : State :=
  { bayCount := 24, seatDebounceMs := 200, bays := Vector.replicate 24 .reset,
    groups := Vector.replicate 16 .undefined, exchanges := [], clb := .reset, atu := .reset,
    slc := .reset, pending := [] }

end Sys2Proof.Machine
end

