-- ==== Sys2Proof/Machine/Ops.lean ====
section
/-! DEFINITION. Machine/Ops.lean: the named operations that the meanings share: bay sets, access to the
bays, timers, saturating counts, and the 1 ms tick. -/

namespace Sys2Proof.Machine

/-! ## Bay sets (Table 0.5) -/

/-- The 24 bay numbers in ascending order. -/
def allBays : List BayId := List.finRange 24

/-- Bay `b` is in the set. -/
def inSet (S : BaySet) (b : BayId) : Bool := S.getLsbD b.val

/-- The set with bay `b` alone. -/
def onlyBay (b : BayId) : BaySet := BitVec.twoPow 24 b.val

/-- The set with bay `b` added. -/
def withBay (S : BaySet) (b : BayId) : BaySet := S ||| onlyBay b

/-- The set with bay `b` removed. -/
def withoutBay (S : BaySet) (b : BayId) : BaySet := S &&& ~~~(onlyBay b)

/-- The set of the bays that satisfy `p`. -/
def setOf (p : BayId → Bool) : BaySet :=
  allBays.foldl (fun S b => if p b then withBay S b else S) 0

/-- The set names a bay at or above the bay count (Table 6.1, checks 1 and 4). -/
def namesAbsent (count : Nat) (S : BaySet) : Bool :=
  allBays.any fun b => inSet S b && decide (count ≤ b.val)

/-- The board of a bay (Table 0.5). -/
def boardOf (b : BayId) : Fin 3 := ⟨b.val / 8, by omega⟩

/-- The slot of a bay in an entry of its board (R126). -/
def slotOf (b : BayId) : Fin 8 := ⟨b.val % 8, by omega⟩

/-! ## The bays -/

/-- Bay `b`. -/
def State.bay (s : State) (b : BayId) : Bay := s.bays.get b

/-- The state with bay `b` replaced. -/
def State.setBay (s : State) (b : BayId) (y : Bay) : State :=
  { s with bays := s.bays.set b.val y b.isLt }

/-- The state with `f` applied at bay `b`. -/
def State.modBay (s : State) (b : BayId) (f : Bay → Bay) : State := s.setBay b (f (s.bay b))

/-- The state with `f` applied at every bay. -/
def State.mapBays (s : State) (f : BayId → Bay → Bay) : State :=
  { s with bays := Vector.ofFn fun b => f b (s.bay b) }

/-- `f` done at each bay of a set, in ascending bay order. Where the manual gives the bays of one CANCEL
or one POWER_OFF no order, that order is the model's (DESIGN CHOICE, unsafe; log entry 25). -/
def State.forBays (s : State) (S : BaySet) (f : BayId → State → State) : State :=
  allBays.foldl (fun s b => if inSet S b then f b s else s) s

/-- Bay `b` is present: below the bay count (Table 0.5). -/
def State.present (s : State) (b : BayId) : Bool := decide (b.val < s.bayCount)

/-- The supply output of a power state is on (R5). -/
def Power.outputOn : Power → Bool
  | .powering | .booting | .on => true
  | .none | .off | .tripped => false

/-! ## Timers and counts (section 0.7) -/

/-- A timer just started with a length. -/
def Timer.start (ms : Nat) : Timer := { length := ms, left := ms }

/-- A timer one tick later; one whose time is up waits for its expiry to be taken. -/
def Timer.tick (t : Timer) : Timer := { t with left := t.left - 1 }

/-- A count that holds at its maximum (Table 0.5). -/
def saturate (most n : Nat) : Nat := min most (n + 1)

/-! ## The tick -/

/-- A step's deadline one tick later (R106). -/
def Deadline.tick : Deadline → Deadline
  | .running t => .running t.tick
  | .notStarted => .notStarted
  | .stopped => .stopped

/-- A step one tick later: elapsed_ms counts while the step waits for its reply (R114). -/
def Step.tick (st : Step) : Step :=
  match st.deadline with
  | .running _ =>
    { st with deadline := st.deadline.tick, clock := min Config.elapsedMost (st.clock + 1) }
  | .notStarted => st
  | .stopped => st

/-- A flight slot one tick later. -/
def Flight.tick : Flight → Flight
  | .step st => .step st.tick
  | .empty => .empty
  | .held t => .held t

/-- An uplink line being assembled, one tick later (R76). -/
def Assembly.tick (a : Assembly) : Assembly := { a with timer := a.timer.tick }

/-- A bay one tick later: its running timers have a millisecond less, the boot timer counts up and
holds at 600,000 (R13). -/
def Bay.tick (y : Bay) : Bay :=
  { y with
    bootTimer := y.bootTimer.map fun n => saturate Config.bootTimerMost n
    debounce := y.debounce.map Timer.tick
    removal := y.removal.map Timer.tick
    rise := y.rise.map Timer.tick
    key := y.key.map Timer.tick
    bootDeadline := y.bootDeadline.map Timer.tick
    limitTrip := y.limitTrip.map Timer.tick
    brownoutTrip := y.brownoutTrip.map Timer.tick
    windowDelay := y.windowDelay.map Timer.tick
    flight := y.flight.tick
    line := { y.line with assembly := y.line.assembly.map Assembly.tick }
    mu := { y.mu with settleTimer := y.mu.settleTimer.map Timer.tick } }

/-- The station one millisecond later, with nothing taken: the ticks of the Bay Controllers, the
Measurement Units and the Station Link Controller (section 0.7; log entry 1). -/
def State.tick (s : State) : State :=
  { s.mapBays (fun _ y => y.tick) with
    slc := { s.slc with
      receiver := { s.slc.receiver with gap := s.slc.receiver.gap.map Timer.tick } } }

/-! ## Link state and held results (R104, R115) -/

/-- A place that holds a held result. -/
def Place.isHeld : Place → Bool
  | .held _ => true
  | .step _ => false

/-- The bay's flight slot or a place of its queue holds a held result (R104). -/
def Bay.holdsResult (y : Bay) : Bool :=
  (match y.flight with
   | .held _ => true
   | .empty => false
   | .step _ => false) || y.places.any Place.isHeld

/-- The link state of a bay that is ON, by the test of R104: a step in flight keeps its own; otherwise
HOLDING while a held result remains, and IDLE when none does. -/
def Bay.relink (y : Bay) : Bay :=
  match y.power with
  | .on =>
    match y.flight with
    | .step _ => y
    | .empty => { y with link := if y.holdsResult then .holding else .idle }
    | .held _ => { y with link := .holding }
  | .none | .off | .powering | .booting | .tripped => y

/-! ## The answer queue (R166, R168) -/

/-- The claimed places of the answer queue: queued answers, and the place of a parked request. -/
def Slc.claimed (l : Slc) : Nat := l.answers.length + (if l.parked.isSome then 1 else 0)

/-- An answer is queued at the tail. -/
def State.answer (s : State) (kind : Byte) (tag : Tag) (status : Status) (content : Content) :
    State :=
  { s with slc := { s.slc with
      answers := s.slc.answers ++ [{ tag, kind, status, content }] } }

end Sys2Proof.Machine
end

