-- ==== Sys2Proof/Machine/Flags.lean ====
section
/-! DEFINITION. Machine/Flags.lean: the Attention Unit's flags and notice queue (chapter 9): raising,
clearing, the order of the queue and its re-evaluation. -/

namespace Sys2Proof.Machine

/-! ## Classes (Table 9.1) -/

/-- The class code, which is its place in class order (Table 11.3). -/
def AttClass.code : AttClass → Fin 9
  | .seated => 0
  | .unseated => 1
  | .ready => 2
  | .bootTimeout => 3
  | .trip => 4
  | .reboot => 5
  | .phoneEvent => 6
  | .band => 7
  | .calibrated => 8

/-- The nine classes in class order. -/
def allClasses : List AttClass :=
  [.seated, .unseated, .ready, .bootTimeout, .trip, .reboot, .phoneEvent, .band, .calibrated]

/-! ## Flags -/

/-- The flag of class `c` at bay `b`. -/
def State.flag (s : State) (b : BayId) (c : AttClass) : Flag := (s.atu.flags.get b).get c.code

/-- The state with the flag of class `c` at bay `b` replaced. -/
def State.setFlag (s : State) (b : BayId) (c : AttClass) (f : Flag) : State :=
  { s with atu := { s.atu with
      flags := s.atu.flags.set b.val ((s.atu.flags.get b).set c.code.val f c.code.isLt) b.isLt } }

/-- The level of a class. -/
def State.level (s : State) (c : AttClass) : Nat := s.atu.levels.get c.code

/-- A class qualifies for a notice when its level is at least the threshold, which is at least 1 (R148). -/
def State.qualifies (s : State) (c : AttClass) : Bool :=
  decide (1 ≤ s.level c) && decide (s.atu.threshold ≤ s.level c)

/-! ## The notice queue (R150) -/

/-- The entry of (b, c) stands before that of (b', c'): a higher level, or the same level and an
earlier raise position. -/
def State.noticeBefore (s : State) (x y : BayId × AttClass) : Bool :=
  decide (s.level y.2 < s.level x.2) ||
    (decide (s.level x.2 = s.level y.2) &&
      decide ((s.flag x.1 x.2).position < (s.flag y.1 y.2).position))

/-- The queue with an entry placed in order (R150). -/
def State.insertNotice (s : State) (x : BayId × AttClass) :
    List (BayId × AttClass) → List (BayId × AttClass)
  | [] => [x]
  | y :: ys => if s.noticeBefore x y then x :: y :: ys else y :: s.insertNotice x ys

/-- The state with an entry entered in the notice queue. -/
def State.enqueueNotice (s : State) (b : BayId) (c : AttClass) : State :=
  { s with atu := { s.atu with queue := s.insertNotice (b, c) s.atu.queue } }

/-- The state with the entry of a flag withdrawn from the notice queue. -/
def State.withdrawNotice (s : State) (b : BayId) (c : AttClass) : State :=
  { s with atu := { s.atu with queue := s.atu.queue.filter fun x => decide (x ≠ (b, c)) } }

/-! ## Raising (R148, R149) -/

/-- A raise of a CLEAR flag: RAISED, at the next raise position, queued if its class qualifies. -/
def State.raiseFresh (s : State) (b : BayId) (c : AttClass) (data : ClassData) : State :=
  let q := s.qualifies c
  let s := s.setFlag b c
    { state := .raised, count := 0, seating := (s.bay b).seating, data := data,
      position := s.atu.nextPosition, queued := q }
  let s := { s with atu := { s.atu with nextPosition := s.atu.nextPosition + 1 } }
  if q then s.enqueueNotice b c else s

/-- A raise of a raised flag: repeat count up by one, seating number and data replaced. -/
def State.raiseAgain (s : State) (b : BayId) (c : AttClass) (data : ClassData) : State :=
  let f := s.flag b c
  s.setFlag b c { f with count := saturate 255 f.count, seating := (s.bay b).seating, data := data }

/-- A block raises class `c` at bay `b`, carrying the bay's seating number and the class data. -/
def State.raiseFlag (s : State) (b : BayId) (c : AttClass) (data : ClassData) : State :=
  match (s.flag b c).state with
  | .clear => s.raiseFresh b c data
  | .raised | .notifying | .notified => s.raiseAgain b c data

/-! ## Clearing (R154) -/

/-- A flag cleared, its entry withdrawn if it was queued. -/
def State.clearFlag (s : State) (b : BayId) (c : AttClass) : State :=
  (s.withdrawNotice b c).setFlag b c .cleared

/-- The standing condition of a class at a bay, read from the owning block (R153); an event class has
none. -/
def State.standing (s : State) (b : BayId) : AttClass → Bool
  | .trip => decide ((s.bay b).power = .tripped)
  | .band => decide ((s.bay b).mu.outOfBand = (s.bay b).params.monitorCount)
  | .seated | .unseated | .ready | .bootTimeout | .reboot | .phoneEvent | .calibrated => false

/-! ## Re-evaluation (R152) -/

/-- Every flag of the station, bay by bay and class by class. -/
def allFlags : List (BayId × AttClass) := allBays.flatMap fun b => allClasses.map fun c => (b, c)

/-- One RAISED flag re-evaluated: queued in its place when it qualifies, unqueued otherwise. -/
def State.reevaluateFlag (s : State) (x : BayId × AttClass) : State :=
  let f := s.flag x.1 x.2
  match f.state with
  | .raised =>
    let q := s.qualifies x.2
    let s := s.setFlag x.1 x.2 { f with queued := q }
    if q then s.enqueueNotice x.1 x.2 else s
  | .clear | .notifying | .notified => s

/-- Every RAISED flag re-evaluated against the threshold and the levels now in force: the queue is
built again, by level and raise position. -/
def State.reevaluate (s : State) : State :=
  allFlags.foldl State.reevaluateFlag { s with atu := { s.atu with queue := [] } }

/-! ## Figures for the trailer (R156) -/

/-- A flag is raised in every state but CLEAR (R147). -/
def Flag.isRaised (f : Flag) : Bool := decide (f.state ≠ .clear)

/-- The attention bay set: bays with any flag raised. -/
def State.attentionBays (s : State) : BaySet :=
  setOf fun b => allClasses.any fun c => (s.flag b c).isRaised

end Sys2Proof.Machine
end

