-- ==== Sys2Proof/Machine/Layout.lean ====
section
/-! DEFINITION. Machine/Layout.lean: the frames the part sends, byte for byte (chapter 11), the frame
check (R162) and the station trailer (R170). -/

namespace Sys2Proof.Machine

/-! ## Numbers and codes (section 11.1, Tables 11.2 and 11.3) -/

/-- A number in `k` bytes, little-endian. -/
def bytesOf : Nat → Nat → List Byte
  | 0, _ => []
  | k + 1, n => BitVec.ofNat 8 n :: bytesOf k (n / 256)

/-- A signed number in `k` bytes, two's complement, little-endian. -/
def signedBytes (k : Nat) (x : Int) : List Byte := bytesOf k (BitVec.ofInt (8 * k) x).toNat

/-- A mark in one byte, 0 or 1. -/
def markByte (m : Bool) : List Byte := [if m then 1 else 0]

/-- A flag byte of two marks, bit 0 first. -/
def flagByte (m0 m1 : Bool) : List Byte :=
  [BitVec.ofNat 8 ((if m0 then 1 else 0) + (if m1 then 2 else 0))]

/-- A bay set. -/
def baySetBytes (S : BaySet) : List Byte := bytesOf 3 S.toNat

/-- A bay number. -/
def bayByte (b : BayId) : List Byte := bytesOf 1 b.val

/-- A text: a length byte and the bytes. -/
def textBytes (t : List Byte) : List Byte := bytesOf 1 t.length ++ t

def Status.code : Status → Byte
  | .ok => 0x00
  | .partialOk => 0x01
  | .noneAccepted => 0x02
  | .badFormat => 0x10
  | .badTag => 0x11
  | .unknownKind => 0x12
  | .badTarget => 0x20
  | .unknownGroup => 0x21
  | .tableFull => 0x30
  | .duplicateTag => 0x31
  | .unknownTag => 0x32
  | .badText => 0x33
  | .badWindow => 0x34
  | .busy => 0x40
  | .reset => 0x41

def Reason.code : Reason → Byte
  | .stale => 1
  | .notSeated => 2
  | .alreadyOn => 3
  | .tripped => 4
  | .busy => 5
  | .powered => 6
  | .notReady => 7
  | .queueFull => 8

def Seat.code : Seat → Byte
  | .vacant => 0
  | .seating => 1
  | .seated => 2

def Power.code : Power → Byte
  | .none => 0
  | .off => 1
  | .powering => 2
  | .booting => 3
  | .on => 4
  | .tripped => 5

def Variant.code : Variant → Byte
  | .plain => 0
  | .recovery => 1

def Link.code : Link → Byte
  | .down => 0
  | .idle => 1
  | .sendingLine => 2
  | .awaiting => 3
  | .measuring => 4
  | .holding => 5

def Range.code : Range → Byte
  | .low => 1
  | .high => 2

def RangeMode.code : RangeMode → Byte
  | .auto => 0
  | .low => 1
  | .high => 2

def MonitorState.code : MonitorState → Byte
  | .stopped => 0
  | .watching => 1

def ResultKind.code : ResultKind → Byte
  | .interim => 0
  | .final => 1

def Outcome.code : Outcome → Byte
  | .ok => 0
  | .phoneError => 1
  | .timeout => 2
  | .cancelled => 3
  | .powerLost => 4
  | .removed => 5
  | .rebooted => 6

/-- The outcome byte of a result; 0xFF for an interim. -/
def outcomeByte (o : Option Outcome) : Byte :=
  match o with
  | none => 0xFF
  | some o => o.code

def Verdict.code : Verdict → Byte
  | .pass => 0
  | .fail => 1
  | .aborted => 2
  | .notOpened => 3
  | .inband => 0x10
  | .low => 0x11
  | .high => 0x12
  | .suppressed => 0x13
  | .empty => 0x14

/-- The reason set as bits LOW 0, HIGH 1, PEAK 2, RMS 3, EMPTY 4. -/
def Reasons.byte (r : Reasons) : Byte :=
  BitVec.ofNat 8 ((if r.low then 1 else 0) + (if r.high then 2 else 0) + (if r.peak then 4 else 0)
    + (if r.rms then 8 else 0) + (if r.empty then 16 else 0))

def AttClass.byte (c : AttClass) : Byte := BitVec.ofNat 8 c.code.val

def FlagState.code : FlagState → Byte
  | .clear => 0
  | .raised => 1
  | .notifying => 2
  | .notified => 3

def TripCause.code : TripCause → Byte
  | .limit => 0
  | .brownout => 1
  | .riseFail => 2

/-! ## Records (section 11.4) -/

/-- A window summary (Table 11.12): 4 bytes for NOT_OPENED, which has no figures, and 30 otherwise. -/
def WindowSummary.bytes (w : WindowSummary) : List Byte :=
  [w.verdict.code, w.reasons.byte] ++ bytesOf 2 w.length ++
  match w.figures with
  | none => []
  | some f =>
    bytesOf 2 f.elapsed ++ bytesOf 2 f.n ++ bytesOf 2 f.blanked ++ bytesOf 2 f.clipped
      ++ bytesOf 1 f.switches ++ flagByte f.empty f.settling ++ signedBytes 4 f.mean
      ++ bytesOf 4 f.rms ++ signedBytes 4 f.min ++ signedBytes 4 f.max

/-- A result record in a batch notice (Table 11.11). -/
def Result.bytes (r : Result) : List Byte :=
  bayByte r.bay ++ bytesOf 2 r.seating.toNat ++ [r.kind.code, outcomeByte r.outcome]
    ++ flagByte r.truncated r.window.isSome ++ bytesOf 1 r.extensions ++ bytesOf 1 r.interimsDropped
    ++ bytesOf 4 r.elapsed ++ textBytes r.text
    ++ match r.window with
       | none => []
       | some w => w.bytes

/-- Class data (Table 11.13). -/
def ClassData.bytes : ClassData → List Byte
  | .none => []
  | .live m => markByte m
  | .bootTime ms => bytesOf 4 ms
  | .deadline ms => bytesOf 4 ms
  | .cause c => [c.code]
  | .steps n => bytesOf 1 n
  | .event t text => markByte t ++ text
  | .band high mean => markByte high ++ signedBytes 4 mean
  | .calibration fault low high => markByte fault ++ signedBytes 2 low ++ signedBytes 2 high

/-- Class data behind its length byte. -/
def ClassData.lengthAndBytes (d : ClassData) : List Byte := bytesOf 1 d.bytes.length ++ d.bytes

/-! ## Answers (section 11.3) -/

/-- A verdict list (Table 11.8). -/
def Verdicts.bytes (v : Verdicts) : List Byte :=
  baySetBytes v.accepted ++ bytesOf 1 v.refused.length
    ++ v.refused.flatMap fun p => bayByte p.1 ++ [p.2.code]

/-- A present value of `k` bytes; nothing for an absent one. -/
def presentBytes (k : Nat) : Option Nat → List Byte
  | none => []
  | some n => bytesOf k n

/-- A present signed value of 4 bytes; nothing for an absent one. -/
def presentSigned : Option Int → List Byte
  | none => []
  | some x => signedBytes 4 x

/-- The applied mask equals the present mask (Table 11.9). -/
def Settings.mask (a : Settings) : Nat :=
  (if a.supplyMv.isSome then 2 ^ 0 else 0) + (if a.limitMa.isSome then 2 ^ 1 else 0)
    + (if a.tripMs.isSome then 2 ^ 2 else 0) + (if a.brownoutMv.isSome then 2 ^ 3 else 0)
    + (if a.keyMs.isSome then 2 ^ 4 else 0) + (if a.bootDeadlineMs.isSome then 2 ^ 5 else 0)
    + (if a.replyDeadlineMs.isSome then 2 ^ 6 else 0) + (if a.extendLimit.isSome then 2 ^ 7 else 0)
    + (if a.linkRate.isSome then 2 ^ 8 else 0) + (if a.rangeMode.isSome then 2 ^ 9 else 0)
    + (if a.settleMs.isSome then 2 ^ 10 else 0) + (if a.settleOnChanges.isSome then 2 ^ 11 else 0)
    + (if a.monitorOn.isSome then 2 ^ 12 else 0) + (if a.monitorWindow.isSome then 2 ^ 13 else 0)
    + (if a.monitorLo.isSome then 2 ^ 14 else 0) + (if a.monitorHi.isSome then 2 ^ 15 else 0)
    + (if a.monitorCount.isSome then 2 ^ 16 else 0) + (if a.logForward.isSome then 2 ^ 17 else 0)

/-- The applied mask and the applied values in bit order (Table 11.6). -/
def Settings.bytes (a : Settings) : List Byte :=
  bytesOf 4 a.mask ++ presentBytes 2 a.supplyMv ++ presentBytes 2 a.limitMa
    ++ presentBytes 2 a.tripMs ++ presentBytes 2 a.brownoutMv ++ presentBytes 2 a.keyMs
    ++ presentBytes 4 a.bootDeadlineMs ++ presentBytes 2 a.replyDeadlineMs
    ++ presentBytes 1 a.extendLimit ++ presentBytes 4 a.linkRate ++ presentBytes 1 a.rangeMode
    ++ presentBytes 2 a.settleMs ++ presentBytes 1 a.settleOnChanges ++ presentBytes 1 a.monitorOn
    ++ presentBytes 2 a.monitorWindow ++ presentSigned a.monitorLo ++ presentSigned a.monitorHi
    ++ presentBytes 1 a.monitorCount ++ presentBytes 1 a.logForward

/-- A flight slot or place in a QUERY_BAY answer: content code and tag, tag 0 when empty. -/
def SlotView.bytes : SlotView → List Byte
  | .empty => [0] ++ bytesOf 2 0
  | .step t => [1] ++ bytesOf 2 t.toNat
  | .held t => [2] ++ bytesOf 2 t.toNat

/-- One flag record of a QUERY_BAY answer; a CLEAR flag carries zeros and no data. -/
def FlagView.bytes (f : FlagView) : List Byte :=
  [f.state.code] ++ bytesOf 1 f.count ++ bytesOf 2 f.seating.toNat ++ f.data.lengthAndBytes

/-- One item of a QUERY_BAY result list (Table 11.10), which has no field for the window summary that R51
names (DESIGN CHOICE, unsafe; log entry 24). -/
def ResultItem.bytes (r : ResultItem) : List Byte :=
  bytesOf 2 r.tag.toNat ++ [r.kind.code, outcomeByte r.outcome] ++ markByte r.inEntry

/-- A QUERY_BAY answer (Table 11.10). -/
def BayReport.bytes (r : BayReport) : List Byte :=
  bayByte r.bay ++ [r.seat.code] ++ bytesOf 2 r.seating.toNat ++ [r.power.code, r.variant.code]
    ++ bytesOf 4 r.bootTime
    ++ [r.link.code, r.token] ++ bytesOf 2 r.stray ++ bytesOf 2 r.garbage
    ++ r.flight.bytes ++ r.places.flatMap SlotView.bytes ++ bytesOf 1 r.heldResults
    ++ markByte r.calibrating ++ signedBytes 2 r.lowOffset ++ signedBytes 2 r.highOffset
    ++ [r.range.code, r.rangeMode.code]
    ++ [r.monitorState.code] ++ bytesOf 1 r.outOfBand ++ bytesOf 1 r.monitorCount
    ++ markByte r.lastSummary.isSome
    ++ (match r.lastSummary with
        | none => []
        | some w => w.bytes)
    ++ r.flags.flatMap FlagView.bytes ++ bytesOf 2 r.logDropped
    ++ bytesOf 1 r.results.length ++ r.results.flatMap ResultItem.bytes

/-- The content after the status (Table 11.9). -/
def Content.bytes : Content → List Byte
  | .none => []
  | .identity n =>
    bytesOf 2 Config.vendorCode ++ bytesOf 2 Config.partCode ++ bytesOf 1 Config.revision
      ++ bytesOf 1 n ++ bytesOf 1 Config.stepPlaces ++ bytesOf 1 Config.exchangeRecords
      ++ bytesOf 1 Config.batchEntries ++ bytesOf 1 Config.groupEntries
      ++ bytesOf 1 Config.logLines ++ bytesOf 1 Config.textBytes
  | .station r =>
    bytesOf 1 r.threshold ++ (r.levels.toList.flatMap fun n => bytesOf 1 n) ++ bytesOf 1 r.pressure
      ++ bytesOf 2 r.holdMs ++ bytesOf 2 r.seatDebounceMs
  | .verdicts v => v.bytes
  | .configured v r =>
    v.bytes ++ r.applied.bytes ++ baySetBytes r.brownoutLowered ++ baySetBytes r.monitorHiRaised
  | .group n replaced => bytesOf 1 n.val ++ markByte replaced
  | .dropped g => bytesOf 2 g.toNat
  | .cancelCounts q f m => bytesOf 1 q ++ bytesOf 1 f ++ bytesOf 1 m
  | .acknowledged v held =>
    v.bytes ++ bytesOf 1 held.length ++ held.flatMap fun p => bayByte p.1 ++ [p.2.byte]
  | .bay r => r.bytes

/-- The payload of an answer: request kind, status, content (R168). -/
def Answer.payload (a : Answer) : List Byte := [a.kind, a.status.code] ++ a.content.bytes

/-! ## The frame check (R162) -/

/-- One bit of the check: shift left, and combine with the generator when the bit that left differs
from the data bit. -/
def crcBit (r : BitVec 16) (d : Bool) : BitVec 16 :=
  if r.getLsbD 15 = d then r <<< 1 else (r <<< 1) ^^^ Config.crcPolynomial

/-- One byte of the check, most significant bit first. -/
def crcByte (r : BitVec 16) (x : Byte) : BitVec 16 :=
  [7, 6, 5, 4, 3, 2, 1, 0].foldl (fun r i => crcBit r (x.getLsbD i)) r

/-- The check over the length bytes and the body bytes. -/
def crcOf (xs : List Byte) : BitVec 16 := xs.foldl crcByte Config.crcInitial

/-- The two length bytes of a body. -/
def lengthBytesOf (body : List Byte) : List Byte := bytesOf 2 body.length

/-- The two check bytes of a body, high byte first (R161). -/
def checkBytesOf (body : List Byte) : List Byte :=
  let c := crcOf (lengthBytesOf body ++ body)
  [c.extractLsb' 8 8, c.extractLsb' 0 8]

/-- A whole frame around a body: sync, length, body, check (R161). -/
def frameOf (body : List Byte) : List Byte :=
  [Config.syncByte] ++ lengthBytesOf body ++ body ++ checkBytesOf body

/-- A body: kind, tag, payload. -/
def bodyOf (kind : Byte) (tag : Tag) (payload : List Byte) : List Byte :=
  kind :: bytesOf 2 tag.toNat ++ payload

/-! ## The station trailer (R170) -/

/-- The parked kind code. -/
def parkedCode : Option Parked → Byte
  | none => 0
  | some (.sync _) => 1
  | some (.query _ _) => 2

/-- The station trailer as the blocks stand now (Tables 10.5 and 11.14). -/
def State.trailer (s : State) : List Byte :=
  baySetBytes s.attentionBays ++ bytesOf 1 s.clb.entries.length ++ bytesOf 1 s.clb.hold.length
    ++ bytesOf 1 s.exchanges.length ++ bytesOf 1 s.slc.framesDropped ++ [parkedCode s.slc.parked]
    ++ bytesOf 1 s.atu.ring.length

/-- A frame the part sends: its body ends with the trailer gathered now (R161, R170). -/
def State.outgoing (s : State) (kind : Byte) (tag : Tag) (payload : List Byte) : List Byte :=
  frameOf (bodyOf kind tag payload ++ s.trailer)

/-! ## Notices (Table 11.14) -/

/-- A batch notice's payload (Table 8.4): the records of the slots that are not empty, in ascending bay
order. -/
def Entry.payload (e : Entry) (cancelled : Bool) : List Byte :=
  let records := e.slots.toList.filterMap id
  bytesOf 1 e.board.val ++ flagByte e.finalMark cancelled ++ bytesOf 1 records.length
    ++ records.flatMap Result.bytes

/-- An attention notice's payload (Table 9.3). -/
def attentionPayload (b : BayId) (c : AttClass) (level : Nat) (f : Flag) : List Byte :=
  bayByte b ++ [c.byte] ++ bytesOf 1 level ++ bytesOf 2 f.seating.toNat ++ bytesOf 1 f.count
    ++ f.data.lengthAndBytes

/-- A log notice's payload (R158). -/
def LogLine.payload (l : LogLine) (dropped : Nat) : List Byte :=
  bayByte l.bay ++ bytesOf 2 l.seating.toNat ++ flagByte l.truncated false ++ bytesOf 2 dropped
    ++ textBytes l.text

end Sys2Proof.Machine
end

