-- ==== Sys2Proof/Machine/Operands.lean ====
section
/-! DEFINITION. Machine/Operands.lean: the operand forms of the requests: reading a payload by the layouts
of Tables 11.4 to 11.7 (R179), and the codes and bits without meaning (R180). A reader takes the bytes
left and gives the field and the rest, or nothing when the body ends before the field. -/

namespace Sys2Proof.Machine

/-! ## Numbers (section 11.1) -/

/-- A byte. -/
def readByte : List Byte → Option (Byte × List Byte)
  | [] => none
  | x :: xs => some (x, xs)

/-- An unsigned number of `k` bytes, little-endian. -/
def readNat : Nat → List Byte → Option (Nat × List Byte)
  | 0, xs => some (0, xs)
  | _ + 1, [] => none
  | k + 1, x :: xs =>
    match readNat k xs with
    | none => none
    | some (n, rest) => some (x.toNat + 256 * n, rest)

/-- A signed two's-complement number of 4 bytes, little-endian. -/
def readInt32 (xs : List Byte) : Option (Int × List Byte) :=
  match readNat 4 xs with
  | none => none
  | some (n, rest) => some ((BitVec.ofNat 32 n).toInt, rest)

/-- A run of `k` bytes. -/
def readBytes (k : Nat) (xs : List Byte) : Option (List Byte × List Byte) :=
  if k ≤ xs.length then some (xs.take k, xs.drop k) else none

/-- A bay set. -/
def readBaySet (xs : List Byte) : Option (BaySet × List Byte) :=
  match readNat 3 xs with
  | none => none
  | some (n, rest) => some (BitVec.ofNat 24 n, rest)

/-- A field that is present only when its mask bit is set. -/
def readIf (present : Bool) {α : Type} (read : List Byte → Option (α × List Byte))
    (xs : List Byte) : Option (Option α × List Byte) :=
  if present then
    match read xs with
    | none => none
    | some (a, rest) => some (some a, rest)
  else some (none, xs)

/-- A payload read whole: no byte remains after the last field (R179). -/
def whole {α : Type} : Option (α × List Byte) → Option α
  | some (a, []) => some a
  | some (_, _ :: _) => none
  | none => none

/-! ## Target specifications (R86, Table 11.4) -/

/-- How a target names its bays. -/
inductive TargetForm where
  | bays (set : BaySet)
  | group (number : Nat)
deriving DecidableEq, Repr

/-- A pin pair as carried: any bay number and a seating number. -/
structure Pin where
  bay     : Nat
  seating : SeatingNumber
deriving DecidableEq, Repr

/-- A target specification as carried. -/
structure Target where
  form : TargetForm
  pins : List Pin
deriving DecidableEq, Repr

/-- A run of `k` pin pairs. -/
def readPins : Nat → List Byte → Option (List Pin × List Byte)
  | 0, xs => some ([], xs)
  | k + 1, xs => do
    let (b, xs) ← readNat 1 xs
    let (n, xs) ← readNat 2 xs
    let (ps, xs) ← readPins k xs
    some ({ bay := b, seating := BitVec.ofNat 16 n } :: ps, xs)

/-- The form byte and the field it selects; another form byte selects no layout (R179). -/
def readForm (xs : List Byte) : Option (TargetForm × List Byte) := do
  let (f, xs) ← readNat 1 xs
  match f with
  | 0 => do
    let (S, xs) ← readBaySet xs
    some (.bays S, xs)
  | 1 => do
    let (g, xs) ← readNat 1 xs
    some (.group g, xs)
  | _ + 2 => none

/-- A target specification. -/
def readTarget (xs : List Byte) : Option (Target × List Byte) := do
  let (form, xs) ← readForm xs
  let (k, xs) ← readNat 1 xs
  let (pins, xs) ← readPins k xs
  some ({ form, pins }, xs)

/-- A pin list of more than 24 pairs has no meaning (R86, R180). -/
def Target.meaningful (t : Target) : Bool := decide (t.pins.length ≤ Config.pinPairs)

/-! ## The payloads (Table 11.5) -/

/-- An empty payload (IDENTIFY, SYNC, RESET_STATION, CANCEL). -/
def readEmpty (xs : List Byte) : Option Unit := if xs = [] then some () else none

/-- POWER_ON: target and variant byte. -/
structure PowerOnRequest where
  target  : Target
  variant : Nat
deriving DecidableEq, Repr

def readPowerOn (xs : List Byte) : Option PowerOnRequest := whole do
  let (target, xs) ← readTarget xs
  let (variant, xs) ← readNat 1 xs
  some ({ target, variant }, xs)

/-- The variant byte has a meaning: 0 or 1 (R180). -/
def PowerOnRequest.meaningful (r : PowerOnRequest) : Bool :=
  r.target.meaningful && decide (r.variant ≤ 1)

/-- POWER_OFF and ZERO: target alone. -/
def readTargetOnly (xs : List Byte) : Option Target := whole (readTarget xs)

/-- ACK_ATTENTION: target and class set. -/
structure AckRequest where
  target  : Target
  classes : BitVec 16
deriving DecidableEq, Repr

def readAck (xs : List Byte) : Option AckRequest := whole do
  let (target, xs) ← readTarget xs
  let (n, xs) ← readNat 2 xs
  some ({ target, classes := BitVec.ofNat 16 n }, xs)

/-- A class set names codes 0 to 8 alone (R180). -/
def AckRequest.meaningful (r : AckRequest) : Bool :=
  r.target.meaningful && decide (r.classes.toNat < 2 ^ 9)

/-- QUERY_BAY: a bay number. -/
def readQuery (xs : List Byte) : Option Nat := whole (readNat 1 xs)

/-- DEFINE_GROUP: group number, bay set, persistent. -/
structure DefineGroupRequest where
  number     : Nat
  bays       : BaySet
  persistent : Bool
deriving DecidableEq, Repr

def readDefineGroup (xs : List Byte) : Option DefineGroupRequest := whole do
  let (number, xs) ← readNat 1 xs
  let (bays, xs) ← readBaySet xs
  let (p, xs) ← readNat 1 xs
  some ({ number, bays, persistent := decide (p ≠ 0) }, xs)

/-- DROP_GROUPS: mode and group number. -/
structure DropGroupsRequest where
  mode   : Nat
  number : Nat
deriving DecidableEq, Repr

/-- The payload of DROP_GROUPS has the byte of the group number in every mode: Table 11.5 gives the field its
size and has its value read for ONE only, while R92 says that the request carries it for mode ONE
(DEDUCED, unsafe; log entry 27). -/
def readDropGroups (xs : List Byte) : Option DropGroupsRequest := whole do
  let (mode, xs) ← readNat 1 xs
  let (number, xs) ← readNat 1 xs
  some ({ mode, number }, xs)

/-- The mode has a meaning: ONE, TRANSIENT or ALL (R180). -/
def DropGroupsRequest.meaningful (r : DropGroupsRequest) : Bool := decide (r.mode ≤ 2)

/-- A run of `k` bytes as numbers. -/
def readNats : Nat → List Byte → Option (List Nat × List Byte)
  | 0, xs => some ([], xs)
  | k + 1, xs => do
    let (n, xs) ← readNat 1 xs
    let (ns, xs) ← readNats k xs
    some (n :: ns, xs)

/-- CONFIGURE_STATION: mask and present values (R174). -/
structure StationSettings where
  mask           : BitVec 8
  threshold      : Option Nat
  levels         : Option (List Nat)
  pressure       : Option Nat
  holdMs         : Option Nat
  seatDebounceMs : Option Nat
deriving DecidableEq, Repr

def readStationSettings (xs : List Byte) : Option StationSettings := whole do
  let (mask, xs) ← readByte xs
  let (threshold, xs) ← readIf (mask.getLsbD 0) (readNat 1) xs
  let (levels, xs) ← readIf (mask.getLsbD 1) (readNats 9) xs
  let (pressure, xs) ← readIf (mask.getLsbD 2) (readNat 1) xs
  let (holdMs, xs) ← readIf (mask.getLsbD 3) (readNat 2) xs
  let (seatDebounceMs, xs) ← readIf (mask.getLsbD 4) (readNat 2) xs
  some ({ mask, threshold, levels, pressure, holdMs, seatDebounceMs }, xs)

/-- The mask has bits 0 to 4 alone (R174, R180). -/
def StationSettings.meaningful (r : StationSettings) : Bool := decide (r.mask.toNat < 2 ^ 5)

/-- CONFIGURE_BAY: target, mask and present values (R93, Table 11.6). -/
structure ConfigureBayRequest where
  target : Target
  mask   : BitVec 32
  values : Settings
deriving DecidableEq, Repr

/-- The present values in bit order (Table 11.6). -/
def readSettings (mask : BitVec 32) (xs : List Byte) : Option (Settings × List Byte) := do
  let (supplyMv, xs) ← readIf (mask.getLsbD 0) (readNat 2) xs
  let (limitMa, xs) ← readIf (mask.getLsbD 1) (readNat 2) xs
  let (tripMs, xs) ← readIf (mask.getLsbD 2) (readNat 2) xs
  let (brownoutMv, xs) ← readIf (mask.getLsbD 3) (readNat 2) xs
  let (keyMs, xs) ← readIf (mask.getLsbD 4) (readNat 2) xs
  let (bootDeadlineMs, xs) ← readIf (mask.getLsbD 5) (readNat 4) xs
  let (replyDeadlineMs, xs) ← readIf (mask.getLsbD 6) (readNat 2) xs
  let (extendLimit, xs) ← readIf (mask.getLsbD 7) (readNat 1) xs
  let (linkRate, xs) ← readIf (mask.getLsbD 8) (readNat 4) xs
  let (rangeMode, xs) ← readIf (mask.getLsbD 9) (readNat 1) xs
  let (settleMs, xs) ← readIf (mask.getLsbD 10) (readNat 2) xs
  let (settleOnChanges, xs) ← readIf (mask.getLsbD 11) (readNat 1) xs
  let (monitorOn, xs) ← readIf (mask.getLsbD 12) (readNat 1) xs
  let (monitorWindow, xs) ← readIf (mask.getLsbD 13) (readNat 2) xs
  let (monitorLo, xs) ← readIf (mask.getLsbD 14) readInt32 xs
  let (monitorHi, xs) ← readIf (mask.getLsbD 15) readInt32 xs
  let (monitorCount, xs) ← readIf (mask.getLsbD 16) (readNat 1) xs
  let (logForward, xs) ← readIf (mask.getLsbD 17) (readNat 1) xs
  some ({ supplyMv, limitMa, tripMs, brownoutMv, keyMs, bootDeadlineMs, replyDeadlineMs,
          extendLimit, linkRate, rangeMode, settleMs, settleOnChanges, monitorOn, monitorWindow,
          monitorLo, monitorHi, monitorCount, logForward }, xs)

def readConfigureBay (xs : List Byte) : Option ConfigureBayRequest := whole do
  let (target, xs) ← readTarget xs
  let (m, xs) ← readNat 4 xs
  let (values, xs) ← readSettings (BitVec.ofNat 32 m) xs
  some ({ target, mask := BitVec.ofNat 32 m, values }, xs)

/-- The mask has bits 0 to 17 alone (R93, R180). -/
def ConfigureBayRequest.meaningful (r : ConfigureBayRequest) : Bool :=
  r.target.meaningful && decide (r.mask.toNat < 2 ^ 18)

/-- A window specification as SEND carries it (Table 11.7). -/
structure RawWindow where
  anchor   : Nat
  delayMs  : Nat
  length   : Nat
  lo       : Int
  hi       : Int
  ceilings : BitVec 8
  peak     : Int
  rms      : Nat
deriving DecidableEq, Repr

def readWindow (xs : List Byte) : Option (RawWindow × List Byte) := do
  let (anchor, xs) ← readNat 1 xs
  let (delayMs, xs) ← readNat 2 xs
  let (length, xs) ← readNat 2 xs
  let (lo, xs) ← readInt32 xs
  let (hi, xs) ← readInt32 xs
  let (ceilings, xs) ← readByte xs
  let (peak, xs) ← readInt32 xs
  let (rms, xs) ← readNat 4 xs
  some ({ anchor, delayMs, length, lo, hi, ceilings, peak, rms }, xs)

/-- SEND (Table 11.5). -/
structure SendRequest where
  target : Target
  flags  : BitVec 8
  text   : List Byte
  window : Option RawWindow
deriving DecidableEq, Repr

/-- The window present byte selects the layout of what follows; a byte other than 0 or 1 selects
none (R179). -/
def readWindowPart (xs : List Byte) : Option (Option RawWindow × List Byte) := do
  let (p, xs) ← readNat 1 xs
  match p with
  | 0 => some (none, xs)
  | 1 => do
    let (w, xs) ← readWindow xs
    some (some w, xs)
  | _ + 2 => none

def readSend (xs : List Byte) : Option SendRequest := whole do
  let (target, xs) ← readTarget xs
  let (flags, xs) ← readByte xs
  let (k, xs) ← readNat 1 xs
  let (text, xs) ← readBytes k xs
  let (window, xs) ← readWindowPart xs
  some ({ target, flags, text, window }, xs)

/-- The flags have bit 0 alone (R180). -/
def SendRequest.meaningful (r : SendRequest) : Bool :=
  r.target.meaningful && decide (r.flags.toNat < 2)

/-- A current lies in the range a sample can carry (Table 7.2). -/
def currentAllowed (x : Int) : Bool :=
  decide (Config.currentLeast ≤ x) && decide (x ≤ Config.currentMost)

/-- The window specification of the values of Table 7.2; none when a field lies outside them or lo is
greater than hi (R100 check 5, R102). The value of an absent ceiling is not read. -/
def RawWindow.spec (w : RawWindow) : Option WindowSpec :=
  let peakOn := w.ceilings.getLsbD 0
  let rmsOn := w.ceilings.getLsbD 1
  if decide (w.anchor ≤ 1) && decide (w.delayMs ≤ 10000) && decide (10 ≤ w.length)
      && decide (w.length ≤ 30000) && currentAllowed w.lo && currentAllowed w.hi
      && decide (w.lo ≤ w.hi) && decide (w.ceilings.toNat < 4)
      && (!peakOn || currentAllowed w.peak) && (!rmsOn || decide (w.rms ≤ Config.rmsMost)) then
    some { anchor := if w.anchor = 0 then .atSend else .atReply, delayMs := w.delayMs,
           length := w.length, lo := w.lo, hi := w.hi,
           peakCeiling := if peakOn then some w.peak else none,
           rmsCeiling := if rmsOn then some w.rms else none }
  else none

/-! ## Taking a request (R167, R168) -/

/-- The checks of R167 after the kind, and those of R180: a payload inconsistent with its layout is
answered BAD_FORMAT, tag 0 BAD_TAG, a code or bit without meaning BAD_FORMAT; a request that passes
is handed to its owner. -/
def State.checked {α : Type} (s : State) (kind : Byte) (tag : Tag) (parsed : Option α)
    (meaningful : α → Bool) (owner : α → State) : State :=
  match parsed with
  | none => s.answer kind tag .badFormat .none
  | some r =>
    if tag = 0 then s.answer kind tag .badTag .none
    else if meaningful r then owner r
    else s.answer kind tag .badFormat .none

end Sys2Proof.Machine
end

