-- ==== Sys2Proof/Machine/Window.lean ====
section
/-! DEFINITION. Machine/Window.lean: window arithmetic (chapter 3): opening, taking period items,
ending, the summary and the verdict. -/

namespace Sys2Proof.Machine

/-! ## Period items (R26) -/

/-- A sample: its current in CU, the range it was taken in and its clipped mark. -/
structure Sample where
  current : Int
  range   : Range
  clipped : Bool
deriving DecidableEq, Repr

/-- A period item: a sample, or a blank, with the settle state of its period. -/
structure PeriodItem where
  sample : Option Sample
  settle : Bool
deriving DecidableEq, Repr

/-! ## The accumulator (R40 to R43) -/

/-- An open request taken: every field afresh, STARTING (R40). -/
def Accumulator.opening (length : Nat) (spec : Option WindowSpec) : Accumulator :=
  { Accumulator.cleared with state := .starting, length := length, spec := spec }

/-- A window takes one more period: it is RUNNING and has not taken all of its L periods. -/
def Accumulator.inside (a : Accumulator) : Bool :=
  decide (a.state = .running) && decide (a.elapsed < a.length)

/-- The window has taken its last period and its completion is the next thing taken (R44). -/
def Accumulator.due (a : Accumulator) : Bool :=
  decide (a.state = .running) && decide (a.length ≤ a.elapsed)

/-- The sums after a sample (R41). -/
def Accumulator.takeSample (a : Accumulator) (x : Sample) : Accumulator :=
  { a with
    n := a.n + 1
    s1 := a.s1 + x.current
    s2 := a.s2 + (x.current * x.current).toNat
    min := some (match a.min with
      | none => x.current
      | some m => if x.current < m then x.current else m)
    max := some (match a.max with
      | none => x.current
      | some m => if m < x.current then x.current else m)
    clipped := if x.clipped then a.clipped + 1 else a.clipped }

/-- A window takes a period item (R41, R42). -/
def Accumulator.take (a : Accumulator) (it : PeriodItem) : Accumulator :=
  if a.inside then
    let a := { a with elapsed := a.elapsed + 1, settling := a.settling || it.settle }
    match it.sample with
    | none => { a with blanked := a.blanked + 1 }
    | some x => a.takeSample x
  else a

/-- A range switch reported at a boundary inside the window (R43). -/
def Accumulator.noteSwitch (a : Accumulator) : Accumulator :=
  if a.inside && decide (1 ≤ a.elapsed) then { a with switches := saturate 255 a.switches } else a

/-- The boundary that begins a STARTING window's first period makes it RUNNING (R40). -/
def Accumulator.begin (a : Accumulator) : Accumulator :=
  match a.state with
  | .starting => { a with state := .running }
  | .free => a
  | .running => a

/-- The accumulator given back at a window's end. -/
def Accumulator.freed (a : Accumulator) : Accumulator := { a with state := .free }

/-! ## The summary (R48 to R51) -/

/-- S1 divided by n, rounded to nearest with halves away from zero (R48). -/
def meanOf (s1 : Int) (n : Nat) : Int :=
  s1.sign * ((2 * s1.natAbs + n) / (2 * n) : Nat)

/-- The bits of a whole square root from the most significant of `k` bits down: `r` is what has been
found so far. -/
def rootBits : Nat → Nat → Nat → Nat
  | 0, _, r => r
  | k + 1, q, r =>
    if (r + 2 ^ k) * (r + 2 ^ k) ≤ q then rootBits k q (r + 2 ^ k) else rootBits k q r

/-- The largest whole number whose square does not exceed `q`, for `q` below 2^64 (R49). -/
def rootOf (q : Nat) : Nat := rootBits 32 q 0

/-- The figures of a window at its end; an EMPTY window reports zeros (R48 to R50). -/
def Accumulator.figures (a : Accumulator) : Figures :=
  if a.n = 0 then
    { elapsed := a.elapsed, n := 0, blanked := a.blanked, clipped := a.clipped,
      switches := a.switches, mean := 0, rms := 0, min := 0, max := 0, empty := true,
      settling := a.settling }
  else
    { elapsed := a.elapsed, n := a.n, blanked := a.blanked, clipped := a.clipped,
      switches := a.switches, mean := meanOf a.s1 a.n, rms := rootOf (a.s2 / a.n),
      min := a.min.getD 0, max := a.max.getD 0, empty := false, settling := a.settling }

/-- The tests of Table 3.4 on the figures of a completed exchange window (R53). -/
def WindowSpec.reasons (w : WindowSpec) (f : Figures) : Reasons :=
  if f.empty then { Reasons.none with empty := true }
  else
    { low := decide (f.mean < w.lo)
      high := decide (w.hi < f.mean)
      peak := match w.peakCeiling with
        | none => false
        | some p => decide (p < f.max)
      rms := match w.rmsCeiling with
        | none => false
        | some r => decide (r < f.rms)
      empty := false }

/-- The summary of a completed exchange window: PASS when no test fails, FAIL otherwise (R53). -/
def Accumulator.completed (a : Accumulator) : WindowSummary :=
  let f := a.figures
  let r := match a.spec with
    | none => Reasons.none
    | some w => w.reasons f
  { verdict := if r = Reasons.none then .pass else .fail, reasons := r, length := a.length,
    figures := some f }

/-- The summary of an exchange window closed early (R54). -/
def Accumulator.aborted (a : Accumulator) : WindowSummary :=
  { verdict := .aborted, reasons := .none, length := a.length, figures := some a.figures }

/-- The summary a close request brings: none from a FREE accumulator; that of the completed window
where the completing boundary was taken first; ABORTED otherwise (R45). -/
def Accumulator.closing (a : Accumulator) : Option WindowSummary :=
  match a.state with
  | .free => none
  | .starting => some a.aborted
  | .running => some (if a.due then a.completed else a.aborted)

/-- The summary of an exchange window that never opened (R51, R54). -/
def notOpenedSummary (length : Nat) : WindowSummary :=
  { verdict := .notOpened, reasons := .none, length := length, figures := none }

/-! ## Monitor outcomes (R56, R57) -/

/-- The outcome of a completed monitor window, by the first row of Table 4.2 that applies. -/
def monitorOutcome (lo hi : Int) (f : Figures) : Verdict :=
  if f.settling then .suppressed
  else if f.n = 0 then .empty
  else if f.mean < lo then .low
  else if hi < f.mean then .high
  else .inband

/-- The out-of-band count after an outcome (Table 4.3). -/
def outOfBandAfter (count most : Nat) : Verdict → Nat
  | .low | .high => min (count + 1) most
  | .inband => 0
  | .suppressed | .empty | .pass | .fail | .aborted | .notOpened => count

end Sys2Proof.Machine
end

