-- ==== Sys2Proof/Machine/Measure.lean ====
section
/-! DEFINITION. Machine/Measure.lean: the Measurement Unit's shared operations (chapters 2 to 4): start
and stop of sampling, settle triggers, the monitor run, the range logic, and the exchange window's
opening and closing as the Bay Controller sees them. -/

namespace Sys2Proof.Machine

/-! ## Settle intervals (R63, R65) -/

/-- A settle trigger taken with a length: it starts or restarts the timer and sets the period in
progress; with length 0 it stops the timer; it is not taken up unless the unit is sampling. -/
def Mu.settleTrigger (m : Mu) (ms : Nat) : Mu :=
  match m.sampling with
  | .sampling =>
    if ms = 0 then { m with settleTimer := none }
    else { m with settleTimer := some (Timer.start ms), periodSettle := true }
  | .idle | .calibrating => m

/-! ## The monitor run (R55, R60, R61) -/

/-- Entry to WATCHING: count 0 and an open request for the monitor accumulator (R55). -/
def Mu.watch (m : Mu) (length : Nat) : Mu :=
  { m with monitorState := .watching, outOfBand := 0, monitorAcc := Accumulator.opening length none }

/-- The monitor stopped: its window abandoned, count 0 (R60, R61). -/
def Mu.unwatch (m : Mu) : Mu :=
  { m with monitorState := .stopped, outOfBand := 0, monitorAcc := m.monitorAcc.freed }

/-- A restart of the monitor with the parameters now stored (R60). -/
def Mu.restartMonitor (m : Mu) (p : Params) : Mu :=
  if p.monitorOn && decide (m.sampling = .sampling) then m.watch p.monitorWindow else m.unwatch

/-! ## Start and stop of sampling (R23, R28, R33) -/

/-- The range in use at the start of sampling (R28). -/
def RangeMode.startRange : RangeMode → Range
  | .auto => .high
  | .low => .low
  | .high => .high

/-- The unit starts sampling when the supply output is switched on (R23, R27, R28, R55, R64). -/
def Mu.startSampling (m : Mu) (p : Params) : Mu :=
  let m := { m with
    sampling := .sampling, range := p.rangeMode.startRange, blanking := 2, downCount := 0,
    wholePeriod := false, periodBlanked := false, periodSettle := false }
  let m := m.settleTrigger p.settleMs
  if p.monitorOn then m.watch p.monitorWindow else m

/-- The unit stops sampling: blanking, down count and settle timer cleared, the monitor stopped, both
windows over (R33, R46, R61, R67). The period in progress is not counted. -/
def Mu.stopSampling (m : Mu) : Mu :=
  { m.unwatch with
    sampling := .idle, blanking := 0, downCount := 0, pendingRange := none, settleTimer := none,
    wholePeriod := false, periodBlanked := false, periodSettle := false,
    exchangeAcc := m.exchangeAcc.freed }

/-! ## The exchange window as the Bay Controller sees it (R40, R45, R107, R116) -/

/-- The Bay Controller keeps a summary handed to it in the window state of its step in flight. -/
def Bay.recordSummary (y : Bay) (w : WindowSummary) : Bay :=
  match y.flight with
  | .step st =>
    match st.window with
    | .opened => { y with flight := .step { st with window := .done w } }
    | .none | .scheduled | .done _ | .notOpened => y
  | .empty | .held _ => y

/-- A close request: the exchange window ends at once, its summary handed to the Bay Controller; a
FREE accumulator changes nothing (R45). -/
def Bay.closeWindow (y : Bay) : Bay :=
  match y.mu.exchangeAcc.closing with
  | none => y
  | some w =>
    { y with mu := { y.mu with exchangeAcc := y.mu.exchangeAcc.freed } }.recordSummary w

/-- An open request of the Bay Controller: taken up while the unit is sampling, and otherwise answered
"not opened" (R40, R107). -/
def Bay.openWindow (y : Bay) (w : WindowSpec) : Bay :=
  match y.flight with
  | .step st =>
    match y.mu.sampling with
    | .sampling =>
      { y with
        flight := .step { st with window := .opened }
        windowDelay := none
        mu := { y.mu with exchangeAcc := Accumulator.opening w.length (some w) } }
    | .idle | .calibrating =>
      { y with flight := .step { st with window := .notOpened }, windowDelay := none }
  | .empty | .held _ => y

/-- Sampling stops at a bay: a pending range_mode becomes the stored mode, the exchange window is
closed and its summary handed over, the monitor window is abandoned (R33, R46, R61). -/
def Bay.stopSampling (y : Bay) : Bay :=
  let y := y.closeWindow
  { y with
    params := { y.params with rangeMode := y.mu.pendingRange.getD y.params.rangeMode }
    mu := y.mu.stopSampling }

/-! ## Samples (R24 to R26) -/

/-- A value limited to −32768..32767 (R25). -/
def clampCode (x : Int) : Int := max (-32768) (min 32767 x)

/-- The offset of a range. -/
def Mu.offset (m : Mu) : Range → Int
  | .low => m.lowOffset
  | .high => m.highOffset

/-- The adjusted code of a raw code (R25). -/
def Mu.adjusted (m : Mu) (c : RawCode) : Int := clampCode (c.toInt - m.offset m.range)

/-- The current of an adjusted code (Table 2.1). -/
def Range.current : Range → Int → Int
  | .low, a => a
  | .high, a => Config.highScale * a

/-- A raw code at either end of its scale is clipped (R24). -/
def isClipped (c : RawCode) : Bool := decide (c.toInt = 32767) || decide (c.toInt = -32768)

/-- The item of the period just ended (R26, R27, R65). -/
def Mu.item (m : Mu) (c : RawCode) : PeriodItem :=
  { settle := m.periodSettle
    sample := if m.periodBlanked then none
      else some { current := m.range.current (m.adjusted c), range := m.range,
                  clipped := isClipped c } }

/-! ## The range logic (R29 to R32) -/

/-- The down count after the period just ended, in AUTO (R30). -/
def Mu.nextDown (m : Mu) (c : RawCode) : Nat :=
  match m.range with
  | .low => 0
  | .high =>
    if m.periodBlanked then 0
    else if m.adjusted c ≤ Config.downSwitchCode then m.downCount + 1 else 0

/-- The range that the automatic decision gives the next period, in AUTO (R29, R30). -/
def Mu.autoRange (m : Mu) (c : RawCode) : Range :=
  match m.range with
  | .low =>
    if !m.periodBlanked && decide (Config.upSwitchCode ≤ m.adjusted c) then .high else .low
  | .high => if m.nextDown c < Config.downSwitchCount then .high else .low

/-- The range of the next period and the down count, under the mode in force and a pending one
(R28 to R31, Table 2.3). -/
def Mu.nextRange (m : Mu) (mode : RangeMode) (c : RawCode) : Range × Nat :=
  match m.pendingRange, mode with
  | some .low, _ => (.low, 0)
  | some .high, _ => (.high, 0)
  | some .auto, .auto => (m.autoRange c, m.nextDown c)
  | some .auto, .low => (m.range, 0)
  | some .auto, .high => (m.range, 0)
  | none, .auto => (m.autoRange c, m.nextDown c)
  | none, .low => (m.range, 0)
  | none, .high => (m.range, 0)

/-- A range switch, where the next period's range differs from that in use: the new range, blanking 2
and down count 0, reported to the open windows; without one only the down count is kept (R32, R43). -/
def Mu.applyRange (m : Mu) (next : Range × Nat) : Mu :=
  if next.1 = m.range then { m with downCount := next.2 }
  else
    { m with
      range := next.1, blanking := 2, downCount := 0
      monitorAcc := m.monitorAcc.noteSwitch
      exchangeAcc := m.exchangeAcc.noteSwitch }

/-- The next period begins: STARTING windows run, the period is blanked while the blanking count is
above 0, and its settle state is set while the settle timer runs (R27, R40, R65). DESIGN CHOICE, unsafe
(log entry 28): the first period of sampling is no exception, so that it is clear where the timer has
stopped before the boundary that begins it. -/
def Mu.beginPeriod (m : Mu) : Mu :=
  { m with
    wholePeriod := true
    periodBlanked := decide (0 < m.blanking)
    blanking := m.blanking - 1
    periodSettle := m.settleTimer.isSome
    monitorAcc := m.monitorAcc.begin
    exchangeAcc := m.exchangeAcc.begin }

/-- The windows take the item of the period just ended (R26, R41). A period that was in progress when
sampling started delivers none (R23). -/
def Mu.endPeriod (m : Mu) (c : RawCode) : Mu :=
  if m.wholePeriod then
    { m with monitorAcc := m.monitorAcc.take (m.item c), exchangeAcc := m.exchangeAcc.take (m.item c) }
  else m

/-- The range decided at a boundary: none is decided for a period that was not a whole period of
sampling, but a pending mode is applied there as well (R23, R31). -/
def Mu.decideRange (m : Mu) (mode : RangeMode) (c : RawCode) : Range × Nat :=
  if m.wholePeriod then m.nextRange mode c
  else match m.pendingRange with
    | some .low => (.low, 0)
    | some .high => (.high, 0)
    | some .auto => (m.range, 0)
    | none => (m.range, 0)

/-- A period boundary at a unit that is sampling: the item, the automatic decision, the pending mode,
the next period, in that order (R26, R31). -/
def Mu.samplingBoundary (m : Mu) (mode : RangeMode) (c : RawCode) : Mu :=
  { (m.endPeriod c).applyRange (m.decideRange mode c) with pendingRange := none }.beginPeriod

/-! ## Zero calibration (R35, R36) -/

/-- A calibration record just created (R35). -/
def Calibration.start : Calibration := { phase := .lowBlank, count := 0, lowSum := 0, highSum := 0 }

/-- The 516th period has been taken (R35, R36). -/
def Calibration.complete (k : Calibration) : Bool :=
  decide (k.phase = .highSum) && decide (Config.calibrationSum ≤ k.count)

/-- A calibration period ended with a raw code (Table 2.6). -/
def Calibration.take (k : Calibration) (c : RawCode) : Calibration :=
  match k.phase with
  | .lowBlank =>
    if k.count + 1 < Config.calibrationBlank then { k with count := k.count + 1 }
    else { k with phase := .lowSum, count := 0 }
  | .lowSum =>
    if k.count + 1 < Config.calibrationSum then
      { k with count := k.count + 1, lowSum := k.lowSum + c.toInt }
    else { k with phase := .highBlank, count := 0, lowSum := k.lowSum + c.toInt }
  | .highBlank =>
    if k.count + 1 < Config.calibrationBlank then { k with count := k.count + 1 }
    else { k with phase := .highSum, count := 0 }
  | .highSum =>
    if k.complete then k else { k with count := k.count + 1, highSum := k.highSum + c.toInt }

/-- A period boundary at a unit that is calibrating: the first one begins period 1 (R35). -/
def Mu.calibratingBoundary (m : Mu) (c : RawCode) : Mu :=
  if m.wholePeriod then { m with calibration := m.calibration.map fun k => k.take c }
  else { m with wholePeriod := true }

/-- A sum divided by 256 and rounded to nearest, halves away from zero (R36). -/
def candidateOf (sum : Int) : Int := sum.sign * ((sum.natAbs + 128) / 256 : Nat)

/-- A candidate lies within the limits of R37. -/
def withinLimits (x : Int) : Bool :=
  decide (-Config.offsetLimit ≤ x) && decide (x ≤ Config.offsetLimit)

end Sys2Proof.Machine
end

