-- ==== Sys2Proof/Machine/Results.lean ====
section
/-! DEFINITION. Machine/Results.lean: results on their way to the host: the exchange record a step belongs
to, the handover of a result to the Exchange Manager and the Collation Buffer (R112, R113, R127), the
due test of the head entry (R131, R132), and the ends of steps (R116). -/

namespace Sys2Proof.Machine

/-! ## The exchange table (R99) -/

/-- The record with a tag. -/
def State.exchange? (s : State) (t : Tag) : Option Exchange :=
  s.exchanges.find? fun x => decide (x.tag = t)

/-- The table with `f` applied to the record of a tag. -/
def State.modExchange (s : State) (t : Tag) (f : Exchange → Exchange) : State :=
  { s with exchanges := s.exchanges.map fun x => if x.tag = t then f x else x }

/-- The window specification of an exchange, if it has one. -/
def State.windowOf (s : State) (t : Tag) : Option WindowSpec :=
  (s.exchange? t).bind fun x => x.window

/-- "Final formed": the bay leaves the pending set, and an exchange with none pending drains (R113). -/
def Exchange.finalFormed (x : Exchange) (b : BayId) : Exchange :=
  let p := withoutBay x.pending b
  { x with pending := p, state := if p = 0 then .draining else x.state }

/-! ## Batch entries (R125 to R128) -/

/-- An OPEN entry with a key. -/
def Entry.takes (e : Entry) (t : Tag) (k : Fin 3) : Bool :=
  decide (e.tag = t) && decide (e.board = k) && !e.sending

/-- A result merged into its slot, replacing whatever the slot held (R128). -/
def Entry.merge (e : Entry) (r : Result) : Entry :=
  { e with slots := e.slots.set (slotOf r.bay).val (some r) (slotOf r.bay).isLt }

/-- An entry opened with one result (Table 8.2, case 2). -/
def Entry.openedWith (r : Result) : Entry :=
  { tag := r.tag, board := boardOf r.bay, age := 0, syncMark := false, queryMark := false,
    sending := false, finalMark := false, dropped := false,
    slots := (Vector.replicate 8 none).set (slotOf r.bay).val (some r) (slotOf r.bay).isLt }

/-- The opening list with a result merged into the OPEN entry of its key (case 1). -/
def mergeInto (r : Result) (es : List Entry) : List Entry :=
  es.map fun e => if e.takes r.tag (boardOf r.bay) then e.merge r else e

/-- Cases 1 and 2 of Table 8.2; nothing when neither applies. -/
def placeIn (r : Result) (es : List Entry) : Option (List Entry) :=
  if es.any (fun e => e.takes r.tag (boardOf r.bay)) then some (mergeInto r es)
  else if es.length < Config.batchEntries then some (es ++ [Entry.openedWith r])
  else none

/-! ## Due conditions of the head (R131 to R133) -/

/-- A slot holds a final. -/
def slotFinal : Option Result → Bool
  | none => false
  | some r => decide (r.kind = .final)

/-- The entry has a final of bay `b` in its slot. -/
def Entry.hasFinal (e : Entry) (b : BayId) : Bool :=
  decide (boardOf b = e.board) && slotFinal (e.slots.get (slotOf b))

/-- The bays with a final in the entry. -/
def Entry.finals (e : Entry) : BaySet := setOf e.hasFinal

/-- An entry is complete when every bay of its board in the exchange's target set that is not in the
reported set has a final in it (R131). -/
def State.complete (s : State) (e : Entry) : Bool :=
  match s.exchange? e.tag with
  | none => false
  | some x => allBays.all fun b =>
      !(decide (boardOf b = e.board) && inSet x.target b && !inSet x.reported b) || e.hasFinal b

/-- The head is due (R132): OPEN, and one of the conditions of Table 8.3 holds. -/
def State.headDue (s : State) : Bool :=
  match s.clb.entries with
  | [] => false
  | e :: rest =>
    !e.sending &&
      (s.complete e
        || rest.any (fun e' => !e'.sending && s.complete e')
        || decide (s.clb.pressure ≤ s.clb.entries.length)
        || decide (s.clb.holdMs ≤ e.age)
        || e.syncMark || e.queryMark)

/-- The head tested again: offered while it is due, withdrawn when it is not (R133). -/
def State.retest (s : State) : State := { s with clb := { s.clb with offer := s.headDue } }

/-! ## The handover of a result (R112, R127) -/

/-- The Collation Buffer takes a result: by case 1 or 2 of Table 8.2, and otherwise a final is held and
an interim dropped. The mark tells the Bay Controller whether it was placed. -/
def State.collate (s : State) (r : Result) : State × Bool :=
  match placeIn r s.clb.entries with
  | some es => ({ s with clb := { s.clb with entries := es } }.retest, true)
  | none =>
    match r.kind with
    | .final => ({ s with clb := { s.clb with hold := s.clb.hold ++ [r] } }, false)
    | .interim => (s, false)

/-- The handover of a final: the Exchange Manager takes it as "final formed" and at the same moment the
Collation Buffer places or holds it (R112). -/
def State.handOver (s : State) (r : Result) : State × Bool :=
  (s.modExchange r.tag fun x => x.finalFormed r.bay).collate r

/-! ## Result records (R114) -/

/-- The window summary of a final: absent without a specification, the summary received, or NOT_OPENED
with the specified length (R54, R114). -/
def StepWindow.summary (spec : Option WindowSpec) : StepWindow → Option WindowSummary
  | .done w => some w
  | .none => .none
  | .scheduled | .opened | .notOpened => spec.map fun w => notOpenedSummary w.length

/-- The final result of a step whose reply phase is over. -/
def State.finalOf (s : State) (b : BayId) (st : Step) (r : Reply) : Result :=
  { bay := b, seating := st.seating, tag := st.tag, kind := .final, outcome := some r.outcome,
    truncated := r.truncated, extensions := st.extensions, interimsDropped := st.interimsDropped,
    elapsed := r.elapsed, text := r.text, window := st.window.summary (s.windowOf st.tag) }

/-- The interim result of a step at the taking of an interim line (R110). -/
def interimOf (b : BayId) (st : Step) (text : List Byte) (truncated : Bool) : Result :=
  { bay := b, seating := st.seating, tag := st.tag, kind := .interim, outcome := none,
    truncated := truncated, extensions := st.extensions, interimsDropped := st.interimsDropped,
    elapsed := st.clock, text := text, window := none }

/-- What the flight slot becomes at formation: empty when the result was placed, the held result when it
was held (R112). -/
def Bay.afterFlight (y : Bay) (t : Tag) (placed : Bool) : Bay :=
  { y with flight := if placed then .empty else .held t, windowDelay := none }

/-- The final of the step in flight is formed and handed over; the link state is left to the caller. -/
def State.formFlight (s : State) (b : BayId) (st : Step) (r : Reply) : State :=
  let (s', placed) := s.handOver (s.finalOf b st r)
  s'.modBay b fun y => y.afterFlight st.tag placed

/-- Result formation (R112): where the reply phase is over and the window NONE, DONE or NOT_OPENED, the
final is formed and the link state becomes IDLE or HOLDING. -/
def State.formResult (s : State) (b : BayId) : State :=
  match (s.bay b).flight with
  | .step st =>
    match st.reply, st.window with
    | some r, .none => (s.formFlight b st r).modBay b Bay.relink
    | some r, .done _ => (s.formFlight b st r).modBay b Bay.relink
    | some r, .notOpened => (s.formFlight b st r).modBay b Bay.relink
    | some _, .scheduled => s
    | some _, .opened => s
    | none, _ => s
  | .empty => s
  | .held _ => s

/-! ## Abnormal ends (R116, Table 7.8) -/

/-- The reply a step has at an abnormal end: the one of its reply phase if that is over, and otherwise
the cause, with an empty text and the time counted since its line was sent (R114). -/
def Step.replyAt (st : Step) (cause : Outcome) : Reply :=
  st.reply.getD { outcome := cause, text := [], truncated := false, elapsed := st.clock }

/-- A SCHEDULED window of an ended step is NOT_OPENED (R116). -/
def StepWindow.settled : StepWindow → StepWindow
  | .scheduled => .notOpened
  | .none => .none
  | .opened => .opened
  | .done w => .done w
  | .notOpened => .notOpened

/-- A step at its abnormal end: deadline stopped, window settled (R116). -/
def Step.ended (st : Step) : Step :=
  { st with deadline := .stopped, window := st.window.settled }

/-- The step in flight ends with a cause: an OPEN window is closed, and its final is formed. A held
result in the flight slot is not touched. -/
def State.endFlight (s : State) (b : BayId) (cause : Outcome) : State :=
  let s := s.modBay b Bay.closeWindow
  match (s.bay b).flight with
  | .step st => s.formFlight b st.ended (st.replyAt cause)
  | .empty => s
  | .held _ => s

/-- The queued steps end in queue order; a final that is held keeps the place. -/
def State.endPlaces (b : BayId) (cause : Outcome) : List Place → State → State × List Place
  | [], s => (s, [])
  | .held t :: ps, s =>
    let (s', ps') := State.endPlaces b cause ps s
    (s', .held t :: ps')
  | .step st :: ps, s =>
    let (s', placed) := s.handOver (s.finalOf b st.ended (st.replyAt cause))
    let (s'', ps') := State.endPlaces b cause ps s'
    (s'', if placed then ps' else .held st.tag :: ps')

/-- Every step of a bay ends with a cause: the step in flight first, then the queued ones, oldest first
(R116). -/
def State.endSteps (s : State) (b : BayId) (cause : Outcome) : State :=
  let s := s.endFlight b cause
  let (s', ps) := State.endPlaces b cause (s.bay b).places s
  s'.modBay b fun y => { y with places := ps }

/-- A place that holds a queued step. -/
def Place.isStep : Place → Bool
  | .step _ => true
  | .held _ => false

/-- The flight slot holds a step. -/
def Flight.isStep : Flight → Bool
  | .step _ => true
  | .empty => false
  | .held _ => false

/-- The number of steps of a bay, queued and in flight, 0 to 5 (R82). -/
def Bay.stepCount (y : Bay) : Nat :=
  (if y.flight.isStep then 1 else 0) + (y.places.filter Place.isStep).length

/-! ## Placing held results (R115, R130) -/

/-- The places without the first held result of a tag. -/
def dropHeld (t : Tag) : List Place → List Place
  | [] => []
  | .held u :: ps => if u = t then ps else .held u :: dropHeld t ps
  | .step st :: ps => .step st :: dropHeld t ps

/-- The Bay Controller is told that a held result of a tag has been placed: it frees the flight slot or
the place that held it (R115). -/
def Bay.freeHeld (y : Bay) (t : Tag) : Bay :=
  (match y.flight with
   | .held u => if u = t then { y with flight := .empty } else { y with places := dropHeld t y.places }
   | .empty => { y with places := dropHeld t y.places }
   | .step _ => { y with places := dropHeld t y.places }).relink

/-- A pass over the hold queue from its head: placing stops at the first held result that neither case
places (R130). -/
def State.placeHeldFrom : List Result → State → State
  | [], s => { s with clb := { s.clb with hold := [] } }
  | r :: rs, s =>
    match placeIn r s.clb.entries with
    | some es =>
      State.placeHeldFrom rs
        ({ s with clb := { s.clb with entries := es } }.modBay r.bay fun y => y.freeHeld r.tag)
    | none => { s with clb := { s.clb with hold := r :: rs } }

/-- Held results placed from the head of the hold queue (R130). -/
def State.placeHeld (s : State) : State := State.placeHeldFrom s.clb.hold s

end Sys2Proof.Machine
end

