-- ==== Sys2Proof/Machine/Monitor.lean ====
section
/-! DEFINITION. Machine/Monitor.lean: the commands of the Measurement Unit: PERIOD_BOUNDARY,
WINDOW_COMPLETION, SETTLE_TIMER_EXPIRY and CALIBRATION_END. The completion of a window is a step of its own,
which follows the boundary that makes it due and comes before the next thing taken at the unit; the
boundary that ends period 516 of a calibration completes it there and then, and CALIBRATION_END is the
same completion as a command of its own (R35; log entry 10). -/

namespace Sys2Proof.Machine

/-! ## Completion of a monitor window (R56 to R59) -/

/-- The summary of a completed monitor window, its outcome in the verdict field (R56). -/
def Accumulator.monitorSummary (a : Accumulator) (lo hi : Int) : WindowSummary :=
  { verdict := monitorOutcome lo hi a.figures, reasons := .none, length := a.length,
    figures := some a.figures }

/-- The completion moves the out-of-band count from below monitor_count to it (R58). -/
def Mu.bandReached (m : Mu) (p : Params) : Bool :=
  let v := monitorOutcome p.monitorLo p.monitorHi m.monitorAcc.figures
  decide (m.outOfBand < p.monitorCount)
    && decide (outOfBandAfter m.outOfBand p.monitorCount v = p.monitorCount)

/-- The unit after the completion of its monitor window: the count updated, the last summary replaced,
and the next window of the run RUNNING from the period that begins at this boundary (R55). -/
def Mu.monitorCompleted (m : Mu) (p : Params) : Mu :=
  { m with
    outOfBand := outOfBandAfter m.outOfBand p.monitorCount
      (monitorOutcome p.monitorLo p.monitorHi m.monitorAcc.figures)
    lastSummary := some (m.monitorAcc.monitorSummary p.monitorLo p.monitorHi)
    monitorAcc := (Accumulator.opening m.monitorAcc.length none).begin }

/-- BAND's class data: the direction and the mean of the completing window (R58). -/
def bandData (p : Params) (f : Figures) : ClassData :=
  .band (decide (monitorOutcome p.monitorLo p.monitorHi f = .high)) f.mean

/-- A monitor window that has taken its L periods completes (R44, R56 to R59). -/
def State.completeMonitor (s : State) (b : BayId) : State :=
  let y := s.bay b
  if y.mu.monitorAcc.due then
    let s' := s.modBay b fun y => { y with mu := y.mu.monitorCompleted y.params }
    if y.mu.bandReached y.params then
      s'.raiseFlag b .band (bandData y.params y.mu.monitorAcc.figures)
    else s'
  else s

/-! ## Completion of an exchange window (R44, R53, R107) -/

/-- The summary of a completed exchange window handed to the Bay Controller. -/
def Bay.exchangeCompleted (y : Bay) : Bay :=
  { y with mu := { y.mu with exchangeAcc := y.mu.exchangeAcc.freed } }.recordSummary
    y.mu.exchangeAcc.completed

/-- An exchange window that has taken its L periods completes; in MEASURING the result is formed
(R107). -/
def State.completeExchange (s : State) (b : BayId) : State :=
  if (s.bay b).mu.exchangeAcc.due then (s.modBay b Bay.exchangeCompleted).formResult b else s

/-! ## The end of a calibration (R36, R37) -/

/-- The unit after the end of a calibration with its record: both candidates within the limits replace
both offsets; the record is discarded. -/
def Mu.calibrated (m : Mu) (k : Calibration) : Mu :=
  let lo := candidateOf k.lowSum
  let hi := candidateOf k.highSum
  let ok := withinLimits lo && withinLimits hi
  { m with
    sampling := .idle, calibration := none, wholePeriod := false
    lowOffset := if ok then lo else m.lowOffset
    highOffset := if ok then hi else m.highOffset }

/-- CALIBRATED's class data: FAULT or OK with the two candidates, which on OK are the offsets now in
force (R37). -/
def calibrationData (k : Calibration) : ClassData :=
  .calibration (!(withinLimits (candidateOf k.lowSum) && withinLimits (candidateOf k.highSum)))
    (candidateOf k.lowSum) (candidateOf k.highSum)

/-- A calibration whose 516 periods have been taken ends (R37). -/
def State.endCalibration (s : State) (b : BayId) : State :=
  match (s.bay b).mu.sampling, (s.bay b).mu.calibration with
  | .calibrating, some k =>
    if k.complete then
      (s.modBay b fun y => { y with mu := y.mu.calibrated k }).raiseFlag b .calibrated
        (calibrationData k)
    else s
  | .calibrating, none => s
  | .idle, _ => s
  | .sampling, _ => s

/-! ## The boundary (R26, R31, R35) -/

/-- What an earlier boundary has made due at a unit is completed. -/
def State.settleDue (s : State) (b : BayId) : State :=
  ((s.completeMonitor b).completeExchange b).endCalibration b

/-- A bay at a period boundary: an idle unit passes it without effect. A pending range_mode becomes the
stored mode once it is applied (R31). -/
def Bay.boundary (y : Bay) (c : RawCode) : Bay :=
  match y.mu.sampling with
  | .sampling =>
    { y with
      params := { y.params with rangeMode := y.mu.pendingRange.getD y.params.rangeMode }
      mu := y.mu.samplingBoundary y.params.rangeMode c }
  | .calibrating => { y with mu := y.mu.calibratingBoundary c }
  | .idle => y

/-! ## The commands -/

/-- PERIOD_BOUNDARY: the boundary that ends a period at bay `b`, with the raw code of that period. The one
that ends period 516 of a calibration completes it (R35 to R37). -/
def execPeriodBoundary (b : BayId) (c : RawCode) (s : State) : Host.Outcome State Fault Refusal :=
  .next (((s.settleDue b).modBay b fun y => y.boundary c).endCalibration b)

/-- WINDOW_COMPLETION: a window whose elapsed count has reached L completes (R44). -/
def execWindowCompletion (b : BayId) (which : WindowKind) (s : State) :
    Host.Outcome State Fault Refusal :=
  .next (match which with
    | .monitor => s.completeMonitor b
    | .exchange => s.completeExchange b)

/-- SETTLE_TIMER_EXPIRY: the settle interval ends (R63); the period in progress keeps its settle state
(R65). -/
def execSettleTimerExpiry (b : BayId) (s : State) : Host.Outcome State Fault Refusal :=
  .next (s.modBay b fun y => { y with mu := { y.mu with settleTimer := none } })

/-- CALIBRATION_END: the calibration whose 516 periods have been taken ends (R37). The boundary that ends
period 516 does the same (R35; log entry 10). -/
def execCalibrationEnd (b : BayId) (s : State) : Host.Outcome State Fault Refusal :=
  .next (s.endCalibration b)

end Sys2Proof.Machine
end

