-- ==== Sys2Proof/Machine/Seat.lean ====
section
/-! DEFINITION. Machine/Seat.lean: seating, supply, boot and trips of one bay (chapter 1). -/

namespace Sys2Proof.Machine

/-! ## The bay line at supply off (R71, R77) -/

/-- A line being sent is stopped: the token is incremented, the transmitter is IDLE, and a pending
transmit rate is applied (R69, R71, R72). -/
def Bay.stopLine (y : Bay) : Bay :=
  match y.line.sending with
  | none => y
  | some _ =>
    { y with
      token := y.token + 1
      line := { y.line with
        sending := none, txRate := y.line.txPending.getD y.line.txRate, txPending := none } }

/-- The receiver becomes inactive: a line being assembled is discarded uncounted, and a pending receive
rate is applied (R69, R77). -/
def Line.silence (l : Line) : Line :=
  { l with
    assembly := none, crEnd := false, rxRate := l.rxPending.getD l.rxRate, rxPending := none }

/-- The receiver is activated at a switch-on: link_rate becomes the receive rate, and the transmit rate
when the transmitter is IDLE (R68). -/
def Line.activate (l : Line) (r : LinkRate) : Line :=
  { l with
    rxRate := r, rxPending := none
    txRate := if l.sending.isNone then r else l.txRate
    txPending := if l.sending.isNone then none else l.txPending }

/-! ## Supply on and off (R5, R6, R9) -/

/-- The supply with its output switched on at the parameters in force (R6, R9). -/
def Supply.enable (u : Supply) (p : Params) : Supply :=
  { u with
    on := true, setMv := p.supplyMv, limitMa := p.limitMa, brownoutMv := p.brownoutMv,
    limitEngaged := false, belowBrownout := true }

/-- The supply with its output switched off: back to the starting condition (R6). -/
def Supply.disable (u : Supply) : Supply :=
  { u with on := false, limitEngaged := false, belowBrownout := true }

/-- Every timer of the power sequence stopped; the boot timer with them (R3, R18, R20). -/
def Bay.stopPowerTimers (y : Bay) : Bay :=
  { y with
    rise := none, key := none, bootDeadline := none, limitTrip := none, brownoutTrip := none,
    bootTimer := none }

/-- Supply off: output off and keys released, the line on the wire stopped, the receiver inactive, the
Measurement Unit stopped (R5, R23, R71, R77). A bay whose output is off already is left alone. -/
def Bay.supplyOff (y : Bay) : Bay :=
  if y.power.outputOn then
    let y := { y with supply := y.supply.disable, powerKey := false, volumeKey := false }
    let y := y.stopLine
    let y := { y with line := y.line.silence }
    y.stopSampling
  else y

/-- The power state after a transition out of POWERING, BOOTING or ON: timers stopped, the early-ready
mark clear, link DOWN (R3, R18, R20). -/
def Bay.powerDown (y : Bay) (p : Power) : Bay :=
  { y.stopPowerTimers with earlyReady := false, outputGood := false, link := .down, power := p }

/-- Entry to POWERING (R9, R15, R23): the variant recorded, the output on, the rise timer started, the
Measurement Unit sampling. -/
def Bay.enterPowering (y : Bay) (v : Variant) : Bay :=
  { y with
    power := .powering, variant := v, earlyReady := false, bootTime := 0, lastBelow := true,
    outputGood := false, supply := y.supply.enable y.params,
    rise := some (Timer.start Config.riseMs), line := y.line.activate y.params.linkRate,
    mu := y.mu.startSampling y.params }

/-- Entry to ON with a boot time: token 00, link IDLE, or HOLDING while held results remain (R11, R14,
R104). -/
def Bay.enterOn (y : Bay) (bootTime : Nat) : Bay :=
  { y with
    power := .on, earlyReady := false, bootTime := bootTime, bootTimer := none,
    bootDeadline := none, token := 0 }.relink

/-! ## Transitions of the station's state -/

/-- Supply off at a bay, after the windows made due by an earlier boundary have completed: that boundary
was taken first, so the monitor window is counted and the step of a window due in MEASURING is gone
(R45, R61, Table 7.9; log entry 10). -/
def State.supplyOff (s : State) (b : BayId) : State :=
  if (s.bay b).power.outputOn then
    ((s.completeMonitor b).completeExchange b).modBay b Bay.supplyOff
  else s

/-- A trip (R18). -/
def State.trip (s : State) (b : BayId) (cause : TripCause) : State :=
  let s := (s.supplyOff b).endSteps b .powerLost
  (s.modBay b fun y => y.powerDown .tripped).raiseFlag b .trip (.cause cause)

/-- A bay accepted by POWER_OFF enters OFF (R19, R20). A TRIPPED bay enters OFF with nothing else to do,
an OFF bay does not change. -/
def State.powerOffBay (s : State) (b : BayId) : State :=
  match (s.bay b).power with
  | .powering | .booting | .on =>
    ((s.supplyOff b).endSteps b .powerLost).modBay b fun y => y.powerDown .off
  | .tripped => s.modBay b fun y => { y with power := .off }
  | .none | .off => s

/-- The live mark of UNSEATED: the output was on when the removal timer expired (R3). -/
def Bay.live (y : Bay) : Bool := y.power.outputOn

/-- Removal, in whatever power state the bay is in (R3). -/
def State.remove (s : State) (b : BayId) : State :=
  let live := (s.bay b).live
  let s := (s.supplyOff b).endSteps b .removed
  let s := s.modBay b fun y =>
    { y.powerDown .none with seat := .vacant, removal := none, powerKey := false, volumeKey := false }
  s.raiseFlag b .unseated (.live live)

/-- Completion of a seating (R2). -/
def State.completeSeating (s : State) (b : BayId) : State :=
  (s.modBay b fun y =>
    { y with
      debounce := none, seating := y.seating + 1, seat := .seated, power := .off, token := 0,
      link := .down }).raiseFlag b .seated .none

/-- A sensor closes event at a bay (R1, R3). -/
def Bay.sensorCloses (y : Bay) (debounceMs : Nat) : Bay :=
  match y.seat with
  | .vacant =>
    { y with sensorClosed := true, seat := .seating, debounce := some (Timer.start debounceMs) }
  | .seating => { y with sensorClosed := true }
  | .seated => { y with sensorClosed := true, removal := none }

/-- A sensor opens event at a bay (R1 to R3). -/
def Bay.sensorOpens (y : Bay) : Bay :=
  match y.seat with
  | .vacant => { y with sensorClosed := false }
  | .seating => { y with sensorClosed := false, seat := .vacant, debounce := none }
  | .seated =>
    { y with sensorClosed := false, removal := some (Timer.start Config.removalMs) }

/-! ## Supply reports (Table 1.4) -/

/-- Output good (R9): in POWERING, once per enable, the rise timer stops, the keys are pressed for
key_ms, and the brownout trip timer starts if the last indication is below. -/
def Bay.outputGoodReport (y : Bay) : Bay :=
  if y.power = .powering ∧ y.outputGood = false then
    { y with
      outputGood := true, rise := none, powerKey := true,
      volumeKey := decide (y.variant = .recovery), key := some (Timer.start y.params.keyMs),
      brownoutTrip :=
        if y.lastBelow then some (Timer.start Config.brownoutTripMs) else y.brownoutTrip }
  else y

/-- A running timer is left running; a stopped one is started (R7). -/
def startUnlessRunning (t : Option Timer) (ms : Nat) : Option Timer :=
  match t with
  | some t => some t
  | none => some (Timer.start ms)

/-- Limit engaged: the limit trip timer starts with trip_ms, read now (R7). -/
def Bay.limitEngagedReport (y : Bay) : Bay :=
  if y.power.outputOn then
    { y with
      supply := { y.supply with limitEngaged := true }
      limitTrip := startUnlessRunning y.limitTrip y.params.tripMs }
  else y

/-- Limit released: the limit trip timer stops (R7). -/
def Bay.limitReleasedReport (y : Bay) : Bay :=
  if y.power.outputOn then
    { y with supply := { y.supply with limitEngaged := false }, limitTrip := none }
  else y

/-- Below brownout: recorded, and acted upon from output good on (R7). -/
def Bay.belowBrownoutReport (y : Bay) : Bay :=
  if y.power.outputOn then
    { y with
      supply := { y.supply with belowBrownout := true }, lastBelow := true
      brownoutTrip :=
        if y.power = .powering ∧ y.outputGood = false then y.brownoutTrip
        else startUnlessRunning y.brownoutTrip Config.brownoutTripMs }
  else y

/-- Above brownout: recorded, and the brownout trip timer stops (R7). -/
def Bay.aboveBrownoutReport (y : Bay) : Bay :=
  if y.power.outputOn then
    { y with
      supply := { y.supply with belowBrownout := false }, lastBelow := false, brownoutTrip := none }
  else y

/-! ## Boot (R11, R13, R14) -/

/-- The end of the key press with the early-ready mark clear: BOOTING (R11). -/
def Bay.enterBooting (y : Bay) : Bay :=
  { y with
    power := .booting, powerKey := false, volumeKey := false, key := none, bootTimer := some 0,
    bootDeadline := some (Timer.start y.params.bootDeadlineMs) }

/-- The end of the key press with the early-ready mark set: ON with boot time 0 (R11). -/
def Bay.enterOnEarly (y : Bay) : Bay :=
  { y with powerKey := false, volumeKey := false, key := none }.enterOn 0

/-- A ready line taken in BOOTING completes the boot (R14). -/
def State.completeBoot (s : State) (b : BayId) : State :=
  let t := (s.bay b).bootTimer.getD 0
  (s.modBay b fun y => y.enterOn t).raiseFlag b .ready (.bootTime t)

/-! ## The commands -/

/-- SENSOR_CLOSES: an absent bay has no seat sensor and takes no sensor event (section 1.1). -/
def execSensorCloses (b : BayId) (s : State) : Host.Outcome State Fault Refusal :=
  .next (if s.present b then s.modBay b fun y => y.sensorCloses s.seatDebounceMs else s)

/-- SENSOR_OPENS. -/
def execSensorOpens (b : BayId) (s : State) : Host.Outcome State Fault Refusal :=
  .next (if s.present b then s.modBay b Bay.sensorOpens else s)

/-- SEAT_DEBOUNCE_EXPIRY: a SEATING bay whose debounce timer runs completes its seating (R2). -/
def execSeatDebounceExpiry (b : BayId) (s : State) : Host.Outcome State Fault Refusal :=
  .next (if (s.bay b).seat = .seating ∧ (s.bay b).debounce.isSome then s.completeSeating b else s)

/-- REMOVAL_TIMER_EXPIRY: a SEATED bay whose removal timer runs is removed (R3). -/
def execRemovalTimerExpiry (b : BayId) (s : State) : Host.Outcome State Fault Refusal :=
  .next (if (s.bay b).seat = .seated ∧ (s.bay b).removal.isSome then s.remove b else s)

/-- OUTPUT_GOOD. -/
def execOutputGood (b : BayId) (s : State) : Host.Outcome State Fault Refusal :=
  .next (s.modBay b Bay.outputGoodReport)

/-- LIMIT_ENGAGED. -/
def execLimitEngaged (b : BayId) (s : State) : Host.Outcome State Fault Refusal :=
  .next (s.modBay b Bay.limitEngagedReport)

/-- LIMIT_RELEASED. -/
def execLimitReleased (b : BayId) (s : State) : Host.Outcome State Fault Refusal :=
  .next (s.modBay b Bay.limitReleasedReport)

/-- BELOW_BROWNOUT. -/
def execBelowBrownout (b : BayId) (s : State) : Host.Outcome State Fault Refusal :=
  .next (s.modBay b Bay.belowBrownoutReport)

/-- ABOVE_BROWNOUT. -/
def execAboveBrownout (b : BayId) (s : State) : Host.Outcome State Fault Refusal :=
  .next (s.modBay b Bay.aboveBrownoutReport)

/-- RISE_TIMER_EXPIRY: in POWERING before output good the bay trips with RISE_FAIL (R10). -/
def execRiseTimerExpiry (b : BayId) (s : State) : Host.Outcome State Fault Refusal :=
  .next (if (s.bay b).power = .powering ∧ (s.bay b).rise.isSome then s.trip b .riseFail else s)

/-- KEY_TIMER_EXPIRY: the keys are released, and the bay enters BOOTING, or ON with boot time 0 when the
early-ready mark is set (R11). -/
def execKeyTimerExpiry (b : BayId) (s : State) : Host.Outcome State Fault Refusal :=
  .next (
    if (s.bay b).power = .powering ∧ (s.bay b).key.isSome then
      if (s.bay b).earlyReady then
        (s.modBay b Bay.enterOnEarly).raiseFlag b .ready (.bootTime 0)
      else s.modBay b Bay.enterBooting
    else s)

/-- BOOT_DEADLINE_EXPIRY: BOOT_TIMEOUT is raised with the length the timer was started with, and the bay
stays in BOOTING (R13). -/
def execBootDeadlineExpiry (b : BayId) (s : State) : Host.Outcome State Fault Refusal :=
  .next (match (s.bay b).power, (s.bay b).bootDeadline with
    | .booting, some t =>
      (s.modBay b fun y => { y with bootDeadline := none }).raiseFlag b .bootTimeout
        (.deadline t.length)
    | _, _ => s)

/-- LIMIT_TRIP_TIMER_EXPIRY: a powered bay whose limit trip timer runs trips with LIMIT (R17, R18). -/
def execLimitTripTimerExpiry (b : BayId) (s : State) : Host.Outcome State Fault Refusal :=
  .next (if (s.bay b).power.outputOn ∧ (s.bay b).limitTrip.isSome then s.trip b .limit else s)

/-- BROWNOUT_TRIP_TIMER_EXPIRY: a powered bay whose brownout trip timer runs trips with BROWNOUT (R17,
R18). -/
def execBrownoutTripTimerExpiry (b : BayId) (s : State) : Host.Outcome State Fault Refusal :=
  .next (if (s.bay b).power.outputOn ∧ (s.bay b).brownoutTrip.isSome then s.trip b .brownout else s)

end Sys2Proof.Machine
end

