-- ==== Sys2Proof/Machine/Steps.lean ====
section
/-! DEFINITION. Machine/Steps.lean: the work of a step at its bay: dispatch, end of transmission, window
delay, reply deadline, matching finals and interims (sections 5.2, 7.4 and 7.5). -/

namespace Sys2Proof.Machine

/-! ## The downlink line (R70) -/

/-- An uppercase hexadecimal digit as a byte. -/
def hexDigit (n : Nat) : Byte := BitVec.ofNat 8 (if n < 10 then 0x30 + n else 0x37 + n)

/-- The bytes of a downlink command line: `@`, the token's two digits, a space, the text, LF. -/
def downlinkLine (t : Token) (text : List Byte) : List Byte :=
  [0x40, hexDigit (t.toNat / 16), hexDigit (t.toNat % 16), 0x20] ++ text ++ [0x0A]

/-! ## Dispatch (R105) -/

/-- The head of the queue when it is a step, and the places behind it. -/
def Bay.headStep? (y : Bay) : Option (Step × List Place) :=
  match y.places with
  | .step st :: ps => some (st, ps)
  | .held _ :: _ => none
  | [] => none

/-- A step at dispatch: the token, reply deadline and extend limit in force, no extensions and no
interims dropped (R105). -/
def Step.dispatched (st : Step) (y : Bay) : Step :=
  { st with
    token := y.token, replyDeadlineMs := y.params.replyDeadlineMs,
    extendLimit := y.params.extendLimit, deadline := .notStarted, extensions := 0,
    interimsDropped := 0, clock := 0 }

/-- The head step enters flight and its line is handed to the transmitter (R70, R105). -/
def Bay.dispatch (y : Bay) (st : Step) (ps : List Place) (text : List Byte) : Bay :=
  { y with
    flight := .step (st.dispatched y), places := ps, link := .sendingLine
    line := { y.line with sending := some (downlinkLine y.token text) } }

/-- The command text of an exchange. -/
def State.textOf (s : State) (t : Tag) : List Byte :=
  match s.exchange? t with
  | none => []
  | some x => x.text

/-- STEP_DISPATCH: where the link is IDLE, the transmitter IDLE and the head of the queue a step, it is
dispatched (R105). -/
def execStepDispatch (b : BayId) (s : State) : Host.Outcome State Fault Refusal :=
  .next (match (s.bay b).link, (s.bay b).line.sending, (s.bay b).headStep? with
    | .idle, none, some (st, ps) => s.modBay b fun y => y.dispatch st ps (s.textOf st.tag)
    | _, _, _ => s)

/-! ## Opening the window of the step in flight (R107) -/

/-- The window delay starts: a timer, or the open request at once when the delay is 0. -/
def Bay.startWindow (y : Bay) (w : WindowSpec) : Bay :=
  if w.delayMs = 0 then y.openWindow w
  else { y with windowDelay := some (Timer.start w.delayMs) }

/-- WINDOW_DELAY_EXPIRY: the open request is sent to the Measurement Unit; where it is not taken up in
MEASURING, the result is formed (R107, R112). -/
def execWindowDelayExpiry (b : BayId) (s : State) : Host.Outcome State Fault Refusal :=
  .next (match (s.bay b).windowDelay, (s.bay b).flight with
    | some _, .step st =>
      match s.windowOf st.tag with
      | some w => (s.modBay b fun y => { y with windowDelay := none }.openWindow w).formResult b
      | none => s.modBay b fun y => { y with windowDelay := none }
    | _, _ => s)

/-! ## End of transmission (R72, R106) -/

/-- The line is complete: the token is incremented, the transmitter is IDLE, a pending transmit rate is
applied. -/
def Bay.lineSent (y : Bay) : Bay := y.stopLine

/-- The step whose line was sent starts to await its reply: deadline, elapsed time, and the delay of an
AT_SEND window (R106). -/
def Bay.awaitReply (y : Bay) (st : Step) (w : Option WindowSpec) : Bay :=
  let y := { y with
    link := .awaiting
    flight := .step { st with deadline := .running (Timer.start st.replyDeadlineMs), clock := 0 } }
  match w with
  | none => y
  | some w =>
    match w.anchor with
    | .atSend => y.startWindow w
    | .atReply => y

/-- DOWNLINK_END_OF_TRANSMISSION: the line on the wire is complete; a step still in flight in
SENDING_LINE awaits its reply (R106). A line whose step was cancelled leads to the token increment
only. -/
def execDownlinkEndOfTransmission (b : BayId) (s : State) : Host.Outcome State Fault Refusal :=
  .next (match (s.bay b).line.sending with
    | none => s
    | some _ =>
      let s := s.modBay b Bay.lineSent
      match (s.bay b).link, (s.bay b).flight with
      | .sendingLine, .step st => s.modBay b fun y => y.awaitReply st (s.windowOf st.tag)
      | _, _ => s)

/-! ## The end of the reply phase (R108, R111) -/

/-- The step records the end of its reply phase. -/
def Step.replied (st : Step) (r : Reply) : Step := { st with deadline := .stopped, reply := some r }

/-- The step in flight enters MEASURING with its reply phase over. -/
def Bay.measure (y : Bay) (st : Step) : Bay := { y with link := .measuring, flight := .step st }

/-- A matching final ends the reply phase: the result is formed, or the step waits for its window, whose
delay an AT_REPLY anchor starts now (R108). -/
def State.replyFinal (s : State) (b : BayId) (st : Step) (r : Reply) : State :=
  let st' := st.replied r
  match st.window, s.windowOf st.tag with
  | .scheduled, some w =>
    match w.anchor with
    | .atSend => s.modBay b fun y => y.measure st'
    | .atReply => (s.modBay b fun y => (y.measure st').startWindow w).formResult b
  | .opened, _ => s.modBay b fun y => y.measure st'
  | _, _ => (s.modBay b fun y => { y with flight := .step st' }).formResult b

/-- The deadline of the step in flight expires: TIMEOUT; an AT_SEND window runs to its end, an AT_REPLY
window still scheduled does not open (R111). -/
def State.replyTimeout (s : State) (b : BayId) (st : Step) : State :=
  let st' := st.replied { outcome := .timeout, text := [], truncated := false, elapsed := st.clock }
  match st.window, s.windowOf st.tag with
  | .scheduled, some w =>
    match w.anchor with
    | .atSend => s.modBay b fun y => y.measure st'
    | .atReply =>
      (s.modBay b fun y => { y with flight := .step { st' with window := .notOpened } }).formResult b
  | .opened, _ => s.modBay b fun y => y.measure st'
  | _, _ => (s.modBay b fun y => { y with flight := .step st' }).formResult b

/-- REPLY_DEADLINE_EXPIRY: the running deadline of a step AWAITING expires (R111). -/
def execReplyDeadlineExpiry (b : BayId) (s : State) : Host.Outcome State Fault Refusal :=
  .next (match (s.bay b).link, (s.bay b).flight with
    | .awaiting, .step st =>
      match st.deadline with
      | .running _ => s.replyTimeout b st
      | .notStarted => s
      | .stopped => s
    | _, _ => s)

/-! ## Interims (R109, R110) -/

/-- An interim extends the step while its extensions are fewer than its limit: the deadline restarts at
its full length (R109). -/
def Step.extended (st : Step) : Step :=
  if st.extensions < st.extendLimit then
    { st with
      extensions := st.extensions + 1, deadline := .running (Timer.start st.replyDeadlineMs) }
  else st

/-- The exchange of a step asks for interim results. -/
def State.reportsInterim (s : State) (t : Tag) : Bool :=
  match s.exchange? t with
  | none => false
  | some x => x.reportInterim

/-- The step after the Collation Buffer told of an interim: a drop is counted (R110). -/
def Step.told (st : Step) (placed : Bool) : Step :=
  if placed then st else { st with interimsDropped := saturate 255 st.interimsDropped }

/-- A matching interim (R109, R110). -/
def State.replyInterim (s : State) (b : BayId) (st : Step) (text : List Byte) (truncated : Bool) :
    State :=
  let st' := st.extended
  if s.reportsInterim st.tag then
    let (s', placed) := s.collate (interimOf b st' text truncated)
    s'.modBay b fun y => { y with flight := .step (st'.told placed) }
  else s.modBay b fun y => { y with flight := .step st' }

end Sys2Proof.Machine
end

