-- ==== Sys2Proof/Machine/Uplink.lean ====
section
/-! DEFINITION. Machine/Uplink.lean: the uplink of the bay line: assembly, classification and routing of
lines (sections 5.3 to 5.5). -/

namespace Sys2Proof.Machine

/-! ## Assembly (R73 to R76) -/

/-- The line assembler is given back: EMPTY, and a pending receive rate is applied (R69). -/
def Line.lineOver (l : Line) : Line :=
  { l with assembly := none, rxRate := l.rxPending.getD l.rxRate, rxPending := none }

/-- A byte other than CR and LF stored, or discarded when 124 are stored (R73, R75). -/
def Assembly.store (a : Assembly) (x : Byte) : Assembly :=
  if a.stored.length < Config.storedBytes then { a with stored := a.stored ++ [x] }
  else { a with discard := true }

/-- A line just begun by a byte or a framing fault: its timer runs for 500 ms. -/
def Assembly.start (stored : List Byte) (broken : Bool) : Assembly :=
  { stored := stored, discard := false, broken := broken, timer := Timer.start Config.lineMs }

/-- The assembler takes a byte: the line afterwards, and the line that ended, if one did (R73). -/
def Line.receive (l : Line) (x : Byte) : Line × Option Assembly :=
  if x = 0x0D then ({ l.lineOver with crEnd := true }, l.assembly)
  else if x = 0x0A then ({ l.lineOver with crEnd := false }, l.assembly)
  else
    match l.assembly with
    | none => ({ l with crEnd := false, assembly := some (Assembly.start [x] false) }, none)
    | some a => ({ l with crEnd := false, assembly := some (a.store x) }, none)

/-- A framing fault: the line is broken, and an EMPTY assembler begins one (R74). -/
def Line.framingFault (l : Line) : Line :=
  match l.assembly with
  | none => { l with crEnd := false, assembly := some (Assembly.start [] true) }
  | some a => { l with crEnd := false, assembly := some { a with broken := true } }

/-- The garbage count up by one (R85). -/
def Line.countGarbage (l : Line) : Line := { l with garbage := saturate 65535 l.garbage }

/-- The stray count up by one (R85). -/
def Line.countStray (l : Line) : Line := { l with stray := saturate 65535 l.stray }

/-! ## Classification (R78) -/

/-- The kinds of an ended uplink line (Table 5.2). -/
inductive LineKind where
  | final (token : Token) (text : List Byte) (truncated : Bool)
  | interim (token : Token) (text : List Byte) (truncated : Bool)
  | event (text : List Byte) (truncated : Bool)
  | log (text : List Byte) (truncated : Bool)
  | garbage
deriving DecidableEq, Repr

/-- The value of a hexadecimal digit: 0 to 9, A to F, a to f. -/
def hexValue (x : Byte) : Option Nat :=
  let n := x.toNat
  if 0x30 ≤ n ∧ n ≤ 0x39 then some (n - 0x30)
  else if 0x41 ≤ n ∧ n ≤ 0x46 then some (n - 0x37)
  else if 0x61 ≤ n ∧ n ≤ 0x66 then some (n - 0x57)
  else none

/-- The hex form: two digits and a space give a token, and the text follows (R78). -/
def hexForm : List Byte → Option (Token × List Byte)
  | h :: l :: sp :: text =>
    match hexValue h, hexValue l with
    | some h, some l => if sp = 0x20 then some (BitVec.ofNat 8 (16 * h + l), text) else none
    | _, _ => none
  | [_, _] => none
  | [_] => none
  | [] => none

/-- A text cut to its first 120 bytes (R78). -/
def cutText (text : List Byte) : List Byte := text.take Config.textBytes

/-- The truncated mark: bytes were cut, or discarded by the assembler (R78). -/
def isTruncated (text : List Byte) (discard : Bool) : Bool :=
  discard || decide (Config.textBytes < text.length)

/-- The kind of an ended line (R74, R78). -/
def Assembly.classify (a : Assembly) : LineKind :=
  if a.broken then .garbage
  else
    match a.stored with
    | [] => .garbage
    | x :: rest =>
      if x = 0x3E then
        match hexForm rest with
        | some (t, text) => .final t (cutText text) (isTruncated text a.discard)
        | none => .garbage
      else if x = 0x2B then
        match hexForm rest with
        | some (t, text) => .interim t (cutText text) (isTruncated text a.discard)
        | none => .garbage
      else if x = 0x21 then .event (cutText rest) (isTruncated rest a.discard)
      else if x = 0x23 then .log (cutText rest) (isTruncated rest a.discard)
      else .garbage

/-- The bytes `READY`. -/
def readyText : List Byte := [0x52, 0x45, 0x41, 0x44, 0x59]

/-- An event text is a ready line's: exactly `READY`, or `READY` and a space (R81). -/
def isReady (text : List Byte) : Bool :=
  decide (text = readyText) || decide (text.take 6 = readyText ++ [0x20])

/-- The reply outcome of a final's text: PHONE_ERROR when it begins with `ERR` (R80). -/
def replyOutcome (text : List Byte) : Outcome :=
  if text.take 3 = [0x45, 0x52, 0x52] then .phoneError else .ok

/-! ## Reboot (R82, R120) -/

/-- A ready line taken in ON: the line is stopped, every step ends REBOOTED, the token is 00, the settle
trigger is sent, and REBOOT is raised with the number of steps ended. An exchange window made due by an
earlier boundary has completed before (Table 7.9; log entry 10). -/
def State.reboot (s : State) (b : BayId) : State :=
  let s := s.completeExchange b
  let n := (s.bay b).stepCount
  let s := (s.modBay b Bay.stopLine).endSteps b .rebooted
  let s := s.modBay b fun y =>
    { y with
      token := 0
      mu := if y.params.settleOnChanges then y.mu.settleTrigger y.params.settleMs
        else y.mu }.relink
  s.raiseFlag b .reboot (.steps n)

/-! ## Log lines (R157) -/

/-- The Attention Unit takes a log line: appended, or dropped and counted when the ring is full. -/
def State.deliverLog (s : State) (l : LogLine) : State :=
  if s.atu.ring.length < Config.logLines then
    { s with atu := { s.atu with ring := s.atu.ring ++ [l] } }
  else
    { s with atu := { s.atu with
        dropped := s.atu.dropped.set l.bay.val
          (saturate 65535 (s.atu.dropped.get l.bay)) l.bay.isLt } }

/-! ## Routing (R79 to R85) -/

/-- A stray is counted and discarded. -/
def State.stray (s : State) (b : BayId) : State :=
  s.modBay b fun y => { y with line := y.line.countStray }

/-- The step in flight awaits a reply with this token (R79). -/
def Bay.matching (y : Bay) (t : Token) : Option Step :=
  match y.link, y.flight with
  | .awaiting, .step st => if st.token = t then some st else none
  | _, _ => none

/-- A ready line, routed by the power state (R81). -/
def State.readyLine (s : State) (b : BayId) : State :=
  match (s.bay b).power with
  | .powering => s.modBay b fun y => { y with earlyReady := true }
  | .booting => s.completeBoot b
  | .on => s.reboot b
  | .none | .off | .tripped => s

/-- An ended line routed by its kind. -/
def State.route (s : State) (b : BayId) : LineKind → State
  | .final t text truncated =>
    match (s.bay b).matching t with
    | some st =>
      s.replyFinal b st { outcome := replyOutcome text, text, truncated, elapsed := st.clock }
    | none => s.stray b
  | .interim t text truncated =>
    match (s.bay b).matching t with
    | some st => s.replyInterim b st text truncated
    | none => s.stray b
  | .event text truncated =>
    if isReady text then s.readyLine b else s.raiseFlag b .phoneEvent (.event truncated text)
  | .log text truncated =>
    if (s.bay b).params.logForward then
      s.deliverLog { bay := b, seating := (s.bay b).seating, truncated, text }
    else s
  | .garbage => s.modBay b fun y => { y with line := y.line.countGarbage }

/-! ## The commands -/

/-- UPLINK_BYTE: an active receiver takes a byte; a line that ends is classified and routed at once
(R73, R78). Bytes driven while the output is off are not received (R68). -/
def execUplinkByte (b : BayId) (x : Byte) (s : State) : Host.Outcome State Fault Refusal :=
  .next (
    if (s.bay b).power.outputOn then
      let (l, ended) := (s.bay b).line.receive x
      let s := s.modBay b fun y => { y with line := l }
      match ended with
      | none => s
      | some a => s.route b a.classify
    else s)

/-- FRAMING_FAULT: a character without its stop bit, at an active receiver (R68, R74). -/
def execFramingFault (b : BayId) (s : State) : Host.Outcome State Fault Refusal :=
  .next (
    if (s.bay b).power.outputOn then s.modBay b fun y => { y with line := y.line.framingFault }
    else s)

/-- LINE_TIMER_EXPIRY: the line being assembled is discarded as garbage (R76). -/
def execLineTimerExpiry (b : BayId) (s : State) : Host.Outcome State Fault Refusal :=
  .next (
    if (s.bay b).line.assembly.isSome then
      s.modBay b fun y =>
        { y with line := { y.line.lineOver.countGarbage with crEnd := false } }
    else s)

end Sys2Proof.Machine
end

