-- ==== Sys2Proof/Machine/Targets.lean ====
section
/-! DEFINITION. Machine/Targets.lean: the arrival of a good request frame (R164, R166), target
specifications and verdict lists (sections 6.1 and 6.2), the requests POWER_ON, POWER_OFF and ZERO, and
the Group Table (section 6.3). -/

namespace Sys2Proof.Machine

/-! ## A good frame (R164, R166) -/

/-- The receiver holding a checked frame for want of room (R166). -/
def Receiver.holding (body : List Byte) : Receiver :=
  { state := .check, lengthBytes := lengthBytesOf body, length := body.length, body := body,
    checkBytes := checkBytesOf body, gap := none, held := true }

/-- The arrival of a good frame: it sets the frames-dropped count to 0, and is taken when fewer than four
places are claimed, and held otherwise. -/
def State.goodFrame (s : State) (body : List Byte) (take : State → State) : State :=
  if s.slc.claimed < Config.answerPlaces then
    take { s with slc := { s.slc with framesDropped := 0, receiver := .hunting } }
  else
    { s with slc := { s.slc with framesDropped := 0, receiver := .holding body } }

/-- A request command: a good frame of the kind arrives whole. While a frame is held the receiver reads
nothing, and a payload that no request frame can carry never arrives (log entry 11). -/
def State.arrives (s : State) (kind : Byte) (tag : Tag) (payload : List Byte)
    (take : State → State) : State :=
  if s.slc.receiver.held || !payloadFits payload then s
  else s.goodFrame (bodyOf kind tag payload) take

/-! ## Resolution (R86, R87) -/

/-- The entry of the Group Table that a number of 0 to 15 names. -/
def State.group (s : State) (n : Fin 16) : Group := s.groups.get n

/-- The bay set a form resolves to, after checks 1 to 3 of Table 6.1. -/
def State.resolveForm (s : State) : TargetForm → Except Status BaySet
  | .bays S => if namesAbsent s.bayCount S then .error .badTarget else .ok S
  | .group n =>
    if h : n < Config.groupEntries then
      let g := s.group ⟨n, h⟩
      if g.defined then .ok g.bays else .error .unknownGroup
    else .error .badTarget

/-- Two pairs of a pin list name one bay. -/
def pinsRepeat : List Pin → Bool
  | [] => false
  | p :: ps => ps.any (fun q => decide (q.bay = p.bay)) || pinsRepeat ps

/-- Check 4 of Table 6.1 refuses a pin list. -/
def State.pinsRefused (s : State) (ps : List Pin) : Bool :=
  ps.any (fun p => decide (s.bayCount ≤ p.bay)) || pinsRepeat ps

/-- The Target Resolver: the request's bay set, or the status of the first check of Table 6.1 that
fails. -/
def State.resolve (s : State) (t : Target) : Except Status BaySet :=
  match s.resolveForm t.form with
  | .error e => .error e
  | .ok S =>
    if s.pinsRefused t.pins then .error .badTarget
    else if S = 0 then .error .badTarget
    else .ok S

/-- The pin check: the list names the bay with a seating number other than its current one (R88). -/
def State.stale (s : State) (ps : List Pin) (b : BayId) : Bool :=
  ps.any fun p => decide (p.bay = b.val) && decide (p.seating ≠ (s.bay b).seating)

/-! ## The verdict list (R89) -/

/-- The verdict list of a resolved set under a per-bay decision. -/
def verdictsOf (S : BaySet) (judge : BayId → Option Reason) : Verdicts :=
  { accepted := setOf fun b => inSet S b && (judge b).isNone
    refused := allBays.filterMap fun b =>
      if inSet S b then (judge b).map fun r => (b, r) else none }

/-- The status of a verdict list. -/
def Verdicts.status (v : Verdicts) : Status :=
  if v.accepted = 0 then .noneAccepted else if v.refused.isEmpty then .ok else .partialOk

/-- A multi-bay request: resolved and checked, decided bay by bay with the pin check first, done at the
accepted bays, and answered with its verdict list (R87 to R89). -/
def State.multiBay (s : State) (kind : Byte) (tag : Tag) (t : Target)
    (judge : BayId → Option Reason) (act : BaySet → State → State) : State :=
  match s.resolve t with
  | .error e => s.answer kind tag e .none
  | .ok S =>
    let v := verdictsOf S fun b => if s.stale t.pins b then some .stale else judge b
    (act v.accepted s).answer kind tag v.status (.verdicts v)

/-! ## POWER_ON (R8, Table 1.5) -/

/-- Checks 2 to 6 of Table 1.5. -/
def Bay.judgePowerOn (y : Bay) : Option Reason :=
  match y.seat with
  | .vacant => some .notSeated
  | .seating => some .notSeated
  | .seated =>
    match y.power with
    | .powering | .booting | .on => some .alreadyOn
    | .tripped => some .tripped
    | .off | .none => if y.mu.sampling = .calibrating then some .busy else none

/-- The variant of a variant byte. -/
def variantOf (n : Nat) : Variant := if n = 1 then .recovery else .plain

/-- The accepted bays enter POWERING. -/
def State.powerOnBays (v : Variant) (S : BaySet) (s : State) : State :=
  s.mapBays fun b y => if inSet S b then y.enterPowering v else y

/-- POWER_ON at its taking. -/
def State.requestPowerOn (tag : Tag) (payload : List Byte) (s : State) : State :=
  s.checked 0x06 tag (readPowerOn payload) PowerOnRequest.meaningful fun r =>
    s.multiBay 0x06 tag r.target (fun b => (s.bay b).judgePowerOn)
      (State.powerOnBays (variantOf r.variant))

/-- POWER_ON. -/
def execPowerOn (tag : Tag) (payload : List Byte) (s : State) : Host.Outcome State Fault Refusal :=
  .next (s.arrives 0x06 tag payload (State.requestPowerOn tag payload))

/-! ## POWER_OFF (R19, Table 1.7) -/

/-- Table 1.7: only a bay that is not SEATED is refused. -/
def Bay.judgePowerOff (y : Bay) : Option Reason :=
  match y.seat with
  | .vacant => some .notSeated
  | .seating => some .notSeated
  | .seated => none

/-- POWER_OFF at its taking. -/
def State.requestPowerOff (tag : Tag) (payload : List Byte) (s : State) : State :=
  s.checked 0x07 tag (readTargetOnly payload) Target.meaningful fun t =>
    s.multiBay 0x07 tag t (fun b => (s.bay b).judgePowerOff)
      fun S s => s.forBays S fun b s => s.powerOffBay b

/-- POWER_OFF. -/
def execPowerOff (tag : Tag) (payload : List Byte) (s : State) : Host.Outcome State Fault Refusal :=
  .next (s.arrives 0x07 tag payload (State.requestPowerOff tag payload))

/-! ## ZERO (R34, R35, Table 2.5) -/

/-- Checks 2 to 4 of Table 2.5. -/
def Bay.judgeZero (y : Bay) : Option Reason :=
  if y.mu.sampling = .calibrating then some .busy
  else if y.power.outputOn then some .powered
  else none

/-- A bay accepted by ZERO begins calibrating (R35). -/
def Bay.beginCalibration (y : Bay) : Bay :=
  { y with mu := { y.mu with
      sampling := .calibrating, calibration := some .start, wholePeriod := false } }

/-- The accepted bays begin calibrating. -/
def State.zeroBays (S : BaySet) (s : State) : State :=
  s.mapBays fun b y => if inSet S b then y.beginCalibration else y

/-- ZERO at its taking. -/
def State.requestZero (tag : Tag) (payload : List Byte) (s : State) : State :=
  s.checked 0x08 tag (readTargetOnly payload) Target.meaningful fun t =>
    s.multiBay 0x08 tag t (fun b => (s.bay b).judgeZero) State.zeroBays

/-- ZERO. -/
def execZero (tag : Tag) (payload : List Byte) (s : State) : Host.Outcome State Fault Refusal :=
  .next (s.arrives 0x08 tag payload (State.requestZero tag payload))

/-! ## DEFINE_GROUP (R91) -/

/-- The sixteen group numbers in ascending order. -/
def allGroups : List (Fin 16) := List.finRange 16

/-- The entry a DEFINE_GROUP uses, or the status of the first check of Table 6.3 that fails. -/
def State.groupFor (s : State) (r : DefineGroupRequest) : Except Status (Fin 16) :=
  if 16 ≤ r.number ∧ r.number ≠ 0xFF then .error .badTarget
  else if r.bays = 0 ∨ namesAbsent s.bayCount r.bays then .error .badTarget
  else if h : r.number < 16 then .ok ⟨r.number, h⟩
  else
    match allGroups.find? fun n => !(s.group n).defined with
    | some n => .ok n
    | none => .error .tableFull

/-- The table with an entry defined or overwritten whole. -/
def State.defineEntry (s : State) (n : Fin 16) (r : DefineGroupRequest) : State :=
  let g : Group := { defined := true, bays := r.bays, persistent := r.persistent }
  { s with groups := s.groups.set n.val g n.isLt }

/-- DEFINE_GROUP at its taking. -/
def State.requestDefineGroup (tag : Tag) (payload : List Byte) (s : State) : State :=
  s.checked 0x04 tag (readDefineGroup payload) (fun _ => true) fun r =>
    match s.groupFor r with
    | .error e => s.answer 0x04 tag e .none
    | .ok n => (s.defineEntry n r).answer 0x04 tag .ok (.group n (s.group n).defined)

/-- DEFINE_GROUP. -/
def execDefineGroup (tag : Tag) (payload : List Byte) (s : State) :
    Host.Outcome State Fault Refusal :=
  .next (s.arrives 0x04 tag payload (State.requestDefineGroup tag payload))

/-! ## DROP_GROUPS (R92) -/

/-- The defined entries that satisfy `p` are made undefined. -/
def State.dropEntries (s : State) (p : Fin 16 → Bool) : State :=
  { s with groups := Vector.ofFn fun n =>
      if (s.group n).defined && p n then .undefined else s.group n }

/-- The dropped set: bit n for group n. -/
def State.droppedSet (s : State) (p : Fin 16 → Bool) : BitVec 16 :=
  allGroups.foldl
    (fun S n => if (s.group n).defined && p n then S ||| BitVec.twoPow 16 n.val else S) 0

/-- The entries that satisfy `p` dropped, and the answer that lists them. -/
def State.answerDrop (s : State) (tag : Tag) (p : Fin 16 → Bool) : State :=
  (s.dropEntries p).answer 0x05 tag .ok (.dropped (s.droppedSet p))

/-- DROP_GROUPS at its taking (Table 6.4). -/
def State.requestDropGroups (tag : Tag) (payload : List Byte) (s : State) : State :=
  s.checked 0x05 tag (readDropGroups payload) DropGroupsRequest.meaningful fun r =>
    match r.mode with
    | 0 =>
      if h : r.number < 16 then
        if (s.group ⟨r.number, h⟩).defined then
          s.answerDrop tag fun n => decide (n.val = r.number)
        else s.answer 0x05 tag .unknownGroup .none
      else s.answer 0x05 tag .badTarget .none
    | 1 => s.answerDrop tag fun n => !(s.group n).persistent
    | _ => s.answerDrop tag fun _ => true

/-- DROP_GROUPS. -/
def execDropGroups (tag : Tag) (payload : List Byte) (s : State) : Host.Outcome State Fault Refusal :=
  .next (s.arrives 0x05 tag payload (State.requestDropGroups tag payload))

end Sys2Proof.Machine
end

