-- ==== Sys2Proof/Machine/Settings.lean ====
section
/-! DEFINITION. Machine/Settings.lean: CONFIGURE_BAY (section 6.4): clamping, storing with the two relations
made good, and the consequences. -/

namespace Sys2Proof.Machine

/-! ## Clamping (R94, Table 6.5) -/

/-- Rounded down to a multiple of the step, then limited to the range. -/
def clampStep (step least most v : Nat) : Nat := max least (min most (v / step * step))

/-- A current limited to the range of Table 6.6. -/
def clampCurrent (x : Int) : Int := max Config.currentLeast (min Config.currentMost x)

/-- link_rate rounded down to an allowed rate. -/
def clampRate (v : Nat) : Nat :=
  if 921600 ≤ v then 921600 else if 460800 ≤ v then 460800 else 115200

/-- monitor_count raised to an allowed count. -/
def clampCount (v : Nat) : Nat :=
  if v ≤ 1 then 1 else if v ≤ 2 then 2 else if v ≤ 3 then 3 else if v ≤ 4 then 4
  else if v ≤ 8 then 8 else if v ≤ 16 then 16 else if v ≤ 32 then 32 else 64

/-- A switch: 0 is off, any other value on. DESIGN CHOICE, unsafe (log entry 29): the applied value of a
switch that is on is the byte 1, whatever byte was carried. -/
def clampSwitch (v : Nat) : Nat := if v = 0 then 0 else 1

/-- range_mode as carried; any other code gives AUTO. -/
def clampMode (v : Nat) : Nat := if v ≤ 2 then v else 0

/-- brownout_mv beside an applied supply_mv is at most 200 below it. -/
def lowerTo (supply : Option Nat) (b : Nat) : Nat :=
  match supply with
  | none => b
  | some sv => min b (sv - 200)

/-- monitor_hi beside an applied monitor_lo is at least it. -/
def raiseTo (lo : Option Int) (h : Int) : Int :=
  match lo with
  | none => h
  | some l => max h l

/-- The applied set of a request's values (R94). -/
def Settings.applied (v : Settings) : Settings :=
  let supply := v.supplyMv.map (clampStep 10 3000 4600)
  let lo := v.monitorLo.map clampCurrent
  { supplyMv := supply
    limitMa := v.limitMa.map (clampStep 10 100 4000)
    tripMs := v.tripMs.map (clampStep 1 1 1000)
    brownoutMv := v.brownoutMv.map fun b => lowerTo supply (clampStep 10 2500 4400 b)
    keyMs := v.keyMs.map (clampStep 1 100 5000)
    bootDeadlineMs := v.bootDeadlineMs.map (clampStep 1 1000 120000)
    replyDeadlineMs := v.replyDeadlineMs.map (clampStep 1 10 60000)
    extendLimit := v.extendLimit.map (clampStep 1 0 15)
    linkRate := v.linkRate.map clampRate
    rangeMode := v.rangeMode.map clampMode
    settleMs := v.settleMs.map (clampStep 1 0 500)
    settleOnChanges := v.settleOnChanges.map clampSwitch
    monitorOn := v.monitorOn.map clampSwitch
    monitorWindow := v.monitorWindow.map (clampStep 1 10 30000)
    monitorLo := lo
    monitorHi := v.monitorHi.map fun h => raiseTo lo (clampCurrent h)
    monitorCount := v.monitorCount.map clampCount
    logForward := v.logForward.map clampSwitch }

/-! ## Storing (R95) -/

/-- The rate of an applied link_rate. -/
def rateOf (v : Nat) : LinkRate :=
  if v = 921600 then .r921600 else if v = 460800 then .r460800 else .r115200

/-- The mode of an applied range_mode code. -/
def modeOf (v : Nat) : RangeMode := if v = 1 then .low else if v = 2 then .high else .auto

/-- A stored switch. -/
def switchOf (v : Option Nat) (old : Bool) : Bool :=
  match v with
  | none => old
  | some n => decide (n ≠ 0)

/-- brownout_mv as a bay stores it: kept at most 200 below supply_mv (R95). -/
def storedBrownout (a : Settings) (p : Params) : Nat :=
  match a.brownoutMv, a.supplyMv with
  | some b, some _ => b
  | some b, none => min b (p.supplyMv - 200)
  | none, some sv => min p.brownoutMv (sv - 200)
  | none, none => p.brownoutMv

/-- The bay is listed in the brownout-lowered set (R95). -/
def brownoutLowered (a : Settings) (p : Params) : Bool :=
  match a.brownoutMv, a.supplyMv with
  | some b, none => decide (p.supplyMv - 200 < b)
  | none, some sv => decide (sv - 200 < p.brownoutMv)
  | some _, some _ => false
  | none, none => false

/-- monitor_hi as a bay stores it: kept at least monitor_lo (R95). -/
def storedHi (a : Settings) (p : Params) : Int :=
  match a.monitorHi, a.monitorLo with
  | some h, some _ => h
  | some h, none => max h p.monitorLo
  | none, some l => max p.monitorHi l
  | none, none => p.monitorHi

/-- The bay is listed in the monitor-hi-raised set (R95). -/
def monitorHiRaised (a : Settings) (p : Params) : Bool :=
  match a.monitorHi, a.monitorLo with
  | some h, none => decide (h < p.monitorLo)
  | none, some l => decide (p.monitorHi < l)
  | some _, some _ => false
  | none, none => false

/-- The stored parameters of a bay after an applied set. range_mode is stored apart, since a sampling
unit takes it as pending (R31). -/
def Params.store (p : Params) (a : Settings) : Params :=
  { supplyMv := a.supplyMv.getD p.supplyMv
    limitMa := a.limitMa.getD p.limitMa
    tripMs := a.tripMs.getD p.tripMs
    brownoutMv := storedBrownout a p
    keyMs := a.keyMs.getD p.keyMs
    bootDeadlineMs := a.bootDeadlineMs.getD p.bootDeadlineMs
    replyDeadlineMs := a.replyDeadlineMs.getD p.replyDeadlineMs
    extendLimit := a.extendLimit.getD p.extendLimit
    linkRate := (a.linkRate.map rateOf).getD p.linkRate
    rangeMode := p.rangeMode
    settleMs := a.settleMs.getD p.settleMs
    settleOnChanges := switchOf a.settleOnChanges p.settleOnChanges
    monitorOn := switchOf a.monitorOn p.monitorOn
    monitorWindow := a.monitorWindow.getD p.monitorWindow
    monitorLo := a.monitorLo.getD p.monitorLo
    monitorHi := storedHi a p
    monitorCount := a.monitorCount.getD p.monitorCount
    logForward := switchOf a.logForward p.logForward }

/-! ## Consequences (R97) -/

/-- The request carries a monitor parameter (R60). -/
def Settings.touchesMonitor (a : Settings) : Bool :=
  a.monitorOn.isSome || a.monitorWindow.isSome || a.monitorLo.isSome || a.monitorHi.isSome
    || a.monitorCount.isSome

/-- Step 1: a changed supply_mv slews an output that is on, with a settle trigger if settle_on_changes
is on as now stored. `old` is the value before the request. -/
def Bay.slew (y : Bay) (old : Nat) : Bay :=
  if y.power.outputOn && decide (y.params.supplyMv ≠ old) then
    { y with
      supply := { y.supply with setMv := y.params.supplyMv }
      mu := if y.params.settleOnChanges then y.mu.settleTrigger y.params.settleMs else y.mu }
  else y

/-- Step 2: limit_ma and brownout_mv take effect at the Bay Supply at once. -/
def Bay.setLimits (y : Bay) : Bay :=
  { y with supply := { y.supply with
      limitMa := y.params.limitMa, brownoutMv := y.params.brownoutMv } }

/-- A rate recorded as pending in both directions, and applied at once in a direction that stands at a
line boundary (R69). -/
def Line.setRate (l : Line) (r : LinkRate) : Line :=
  { l with
    txRate := if l.sending.isNone then r else l.txRate
    txPending := if l.sending.isNone then none else some r
    rxRate := if l.assembly.isNone then r else l.rxRate
    rxPending := if l.assembly.isNone then none else some r }

/-- Step 3, link_rate. -/
def Bay.setRate (y : Bay) (a : Settings) : Bay :=
  match a.linkRate with
  | none => y
  | some v => { y with line := y.line.setRate (rateOf v) }

/-- Step 3, range_mode: pending while the unit samples, stored otherwise (R31). -/
def Bay.setMode (y : Bay) (a : Settings) : Bay :=
  match a.rangeMode with
  | none => y
  | some v =>
    match y.mu.sampling with
    | .sampling => { y with mu := { y.mu with pendingRange := some (modeOf v) } }
    | .idle | .calibrating => { y with params := { y.params with rangeMode := modeOf v } }

/-- Step 4: the monitor restarts once if any monitor parameter is present (R60). -/
def Bay.restartMonitor (y : Bay) (a : Settings) : Bay :=
  if a.touchesMonitor then { y with mu := y.mu.restartMonitor y.params } else y

/-- One accepted bay under an applied set: stored, adjusted, and the consequences made in order. -/
def Bay.configure (y : Bay) (a : Settings) : Bay :=
  let z := ({ y with params := y.params.store a }.slew y.params.supplyMv).setLimits
  ((z.setRate a).setMode a).restartMonitor a

/-- The accepted bays under an applied set. A monitor window made due by an earlier boundary completes
before a restart (R60). -/
def State.configureBays (a : Settings) (S : BaySet) (s : State) : State :=
  let s := if a.touchesMonitor then s.forBays S (fun b s => s.completeMonitor b) else s
  s.mapBays fun b y => if inSet S b then y.configure a else y

/-- What the answer carries beside the verdict list (R93). -/
def State.appliedReport (s : State) (a : Settings) (S : BaySet) : AppliedReport :=
  { applied := a
    brownoutLowered := setOf fun b => inSet S b && brownoutLowered a (s.bay b).params
    monitorHiRaised := setOf fun b => inSet S b && monitorHiRaised a (s.bay b).params }

/-- The answer content of CONFIGURE_BAY: a NONE_ACCEPTED answer carries the verdict list alone. -/
def State.configureContent (s : State) (a : Settings) (v : Verdicts) : Content :=
  if v.accepted = 0 then .verdicts v else .configured v (s.appliedReport a v.accepted)

/-- CONFIGURE_BAY at its taking (R93): the pin check alone decides a bay. -/
def State.requestConfigureBay (tag : Tag) (payload : List Byte) (s : State) : State :=
  s.checked 0x03 tag (readConfigureBay payload) ConfigureBayRequest.meaningful fun r =>
    match s.resolve r.target with
    | .error e => s.answer 0x03 tag e .none
    | .ok S =>
      let a := r.values.applied
      let v := verdictsOf S fun b => if s.stale r.target.pins b then some .stale else none
      (s.configureBays a v.accepted).answer 0x03 tag v.status (s.configureContent a v)

/-- CONFIGURE_BAY. -/
def execConfigureBay (tag : Tag) (payload : List Byte) (s : State) :
    Host.Outcome State Fault Refusal :=
  .next (s.arrives 0x03 tag payload (State.requestConfigureBay tag payload))

end Sys2Proof.Machine
end

