-- ==== Sys2Proof/Machine/Exchanges.lean ====
section
/-! DEFINITION. Machine/Exchanges.lean: SEND and CANCEL (sections 7.2 and 7.8). -/

namespace Sys2Proof.Machine

/-! ## SEND (R100, R101) -/

/-- A command text is 1 to 120 bytes without CR or LF (Table 7.3, check 4). -/
def textAllowed (t : List Byte) : Bool :=
  decide (1 ≤ t.length) && decide (t.length ≤ Config.textBytes)
    && t.all fun x => decide (x ≠ 0x0D) && decide (x ≠ 0x0A)

/-- Checks 2 to 4 of Table 7.3. -/
def State.sendRefusal (s : State) (tag : Tag) (text : List Byte) : Option Status :=
  if (s.exchange? tag).isSome then some .duplicateTag
  else if Config.exchangeRecords ≤ s.exchanges.length then some .tableFull
  else if !textAllowed text then some .badText
  else none

/-- Check 5 of Table 7.3: the specification carried, an absent one, or a refusal. -/
def SendRequest.windowSpec (r : SendRequest) : Except Status (Option WindowSpec) :=
  match r.window with
  | none => .ok none
  | some w =>
    match w.spec with
    | none => .error .badWindow
    | some spec => .ok (some spec)

/-- Checks 2 to 4 of Table 7.4. -/
def Bay.judgeSend (y : Bay) : Option Reason :=
  match y.power with
  | .on => if Config.stepPlaces ≤ y.places.length then some .queueFull else none
  | .none | .off | .powering | .booting | .tripped => some .notReady

/-- A step as a SEND appends it (R103). Extensions used and interims dropped, which Table 7.5 sets at
dispatch alone, are 0 from here on, and so in the final of a step that ends in its place (DESIGN CHOICE,
unsafe; log entry 26). -/
def Step.fresh (tag : Tag) (seating : SeatingNumber) (windowed : Bool) : Step :=
  { tag, seating, token := 0, replyDeadlineMs := 0, extendLimit := 0, deadline := .notStarted,
    extensions := 0, interimsDropped := 0, reply := none, clock := 0,
    window := if windowed then .scheduled else .none }

/-- A bay with a step appended at the tail of its queue. -/
def Bay.append (y : Bay) (tag : Tag) (windowed : Bool) : Bay :=
  { y with places := y.places ++ [.step (Step.fresh tag y.seating windowed)] }

/-- The record of an accepted SEND (R101). -/
def SendRequest.record (r : SendRequest) (tag : Tag) (w : Option WindowSpec) (S : BaySet) :
    Exchange :=
  { tag, text := r.text, target := S, pending := S, reported := 0,
    reportInterim := r.flags.getLsbD 0, window := w, state := .opened, cancelled := false }

/-- An accepted SEND: the record created, and one step at each accepted bay. With no bay accepted
nothing is done. -/
def State.startExchange (r : SendRequest) (tag : Tag) (w : Option WindowSpec) (S : BaySet)
    (s : State) : State :=
  if S = 0 then s
  else
    { s with exchanges := s.exchanges ++ [r.record tag w S] }.mapBays fun b y =>
      if inSet S b then y.append tag w.isSome else y

/-- SEND at its taking (Tables 7.3 and 7.4). -/
def State.requestSend (tag : Tag) (payload : List Byte) (s : State) : State :=
  s.checked 0x09 tag (readSend payload) SendRequest.meaningful fun r =>
    match s.sendRefusal tag r.text with
    | some e => s.answer 0x09 tag e .none
    | none =>
      match r.windowSpec with
      | .error e => s.answer 0x09 tag e .none
      | .ok w =>
        s.multiBay 0x09 tag r.target (fun b => (s.bay b).judgeSend) (State.startExchange r tag w)

/-- SEND. -/
def execSend (tag : Tag) (payload : List Byte) (s : State) : Host.Outcome State Fault Refusal :=
  .next (s.arrives 0x09 tag payload (State.requestSend tag payload))

/-! ## CANCEL (R117, R122) -/

/-- Where the step of an exchange stands at a bay. -/
inductive Standing where
  | queued
  | inFlight
  | measuring
  | absent
deriving DecidableEq, Repr

/-- A queued step of an exchange. -/
def Place.isStepOf (t : Tag) : Place → Bool
  | .step st => decide (st.tag = t)
  | .held _ => false

/-- Where a bay's step of an exchange stands. -/
def Bay.standing (y : Bay) (t : Tag) : Standing :=
  let inQueue : Standing := if y.places.any (Place.isStepOf t) then .queued else .absent
  match y.flight with
  | .step st =>
    if st.tag = t then (if y.link = .measuring then .measuring else .inFlight) else inQueue
  | .empty => inQueue
  | .held _ => inQueue

/-- The places of a bay with its queued step of an exchange ended: gone when its final was placed, a
held result in its place otherwise. -/
def endPlaceOf (t : Tag) (placed : Bool) : List Place → List Place
  | [] => []
  | .held u :: ps => .held u :: endPlaceOf t placed ps
  | .step st :: ps =>
    if st.tag = t then (if placed then ps else .held t :: ps)
    else .step st :: endPlaceOf t placed ps

/-- The queued step of an exchange. -/
def queuedStep? (t : Tag) : List Place → Option Step
  | [] => none
  | .held _ :: ps => queuedStep? t ps
  | .step st :: ps => if st.tag = t then some st else queuedStep? t ps

/-- The queued step of an exchange ends CANCELLED (R117). -/
def State.cancelQueued (s : State) (t : Tag) (b : BayId) : State :=
  match queuedStep? t (s.bay b).places with
  | none => s
  | some st =>
    let (s', placed) := s.handOver (s.finalOf b st.ended (st.replyAt .cancelled))
    s'.modBay b fun y => { y with places := endPlaceOf t placed y.places }.relink

/-- A CANCEL at one bay ends its step of the exchange, and only that step (R117). A line on the wire is
completed. -/
def State.cancelAt (s : State) (t : Tag) (b : BayId) : State :=
  match (s.bay b).standing t with
  | .queued => s.cancelQueued t b
  | .inFlight | .measuring => (s.endFlight b .cancelled).modBay b Bay.relink
  | .absent => s

/-- How many bays of a set have their step of an exchange standing so. -/
def State.countStanding (s : State) (t : Tag) (S : BaySet) (w : Standing) : Nat :=
  (allBays.filter fun b => inSet S b && decide ((s.bay b).standing t = w)).length

/-- CANCEL at a record (R122). The pending bays end their steps in ascending bay order, which the manual
leaves open (DESIGN CHOICE, unsafe; log entry 25). -/
def State.cancelExchange (s : State) (tag : Tag) (x : Exchange) : State :=
  match x.state with
  | .draining => s.answer 0x0A tag .ok (.cancelCounts 0 0 0)
  | .opened =>
    let s' := s.forBays x.pending fun b s => s.cancelAt tag b
    (s'.modExchange tag fun x => { x with cancelled := true }).answer 0x0A tag .ok
      (.cancelCounts (s.countStanding tag x.pending .queued)
        (s.countStanding tag x.pending .inFlight) (s.countStanding tag x.pending .measuring))

/-- The exchange windows that an earlier boundary made due at the pending bays of an exchange are
completed: a completion taken before the CANCEL leaves its bay no longer pending (R117, Table 7.9; log
entry 10). -/
def State.completePending (s : State) (tag : Tag) : State :=
  match s.exchange? tag with
  | none => s
  | some x => s.forBays x.pending fun b s => s.completeExchange b

/-- CANCEL decided on the record of its tag as it then stands (R122). -/
def State.decideCancel (s : State) (tag : Tag) : State :=
  match s.exchange? tag with
  | none => s.answer 0x0A tag .unknownTag .none
  | some x => s.cancelExchange tag x

/-- CANCEL at its taking. -/
def State.requestCancel (tag : Tag) (payload : List Byte) (s : State) : State :=
  s.checked 0x0A tag (readEmpty payload) (fun _ => true) fun _ =>
    (s.completePending tag).decideCancel tag

/-- CANCEL. -/
def execCancel (tag : Tag) (payload : List Byte) (s : State) : Host.Outcome State Fault Refusal :=
  .next (s.arrives 0x0A tag payload (State.requestCancel tag payload))

end Sys2Proof.Machine
end

