-- ==== Sys2Proof/Machine/Arbiter.lean ====
section
/-! DEFINITION. Machine/Arbiter.lean: the transmit arbiter (R171, R172) and the commands of the answer
queue and the log ring: TAKE_ANSWER, TAKE_LOG_LINE and FRAME_END_OF_TRANSMISSION. -/

namespace Sys2Proof.Machine

/-- The level of the notice-queue head, when the queue is not empty. -/
def State.noticeLevel (s : State) : Option Nat :=
  match s.atu.queue with
  | [] => none
  | x :: _ => some (s.level x.2)

/-- The classes of source that compete for the outgoing pipe (R171). -/
inductive Choice where
  | answer
  | attention
  | batch
  | log
deriving DecidableEq, Repr

/-- The first source in the order of R171 that has a frame to offer. -/
def State.choice (s : State) : Option Choice :=
  if !s.slc.answers.isEmpty then some .answer
  else if s.noticeLevel = some 3 then some .attention
  else if s.clb.offer then some .batch
  else if s.noticeLevel = some 2 ∨ s.noticeLevel = some 1 then some .attention
  else if !s.atu.ring.isEmpty then some .log
  else none

/-- The arbiter chooses a class of source now: the transmitter is FREE and that class comes first. -/
def State.chooses (s : State) (c : Choice) : Bool :=
  s.slc.transmitter.isNone && decide (s.choice = some c)

/-- The transmitter becomes BUSY with a frame whose trailer is gathered now (R170, R172). -/
def State.transmit (s : State) (source : Source) (kind : Byte) (tag : Tag) (payload : List Byte) :
    State :=
  { s with slc := { s.slc with
      transmitter := some { bytes := s.outgoing kind tag payload, source, discarding := false } } }

/-- The transmitter becomes FREE. -/
def State.freeTransmitter (s : State) : State :=
  { s with slc := { s.slc with transmitter := none } }

/-- TAKE_ANSWER: the head answer leaves the queue, its place is released, and its frame is sent (R172). -/
def execTakeAnswer (s : State) : Host.Outcome State Fault Refusal :=
  .next (match s.chooses .answer, s.slc.answers with
    | true, a :: rest =>
      ({ s with slc := { s.slc with answers := rest } }).transmit .answer 0x80 a.tag a.payload
    | _, _ => s)

/-- A log line taken: it leaves the ring, and its bay's dropped count is set to 0 (R158). -/
def State.logTaken (s : State) (l : LogLine) (rest : List LogLine) : State :=
  { s with atu := { s.atu with
      ring := rest, dropped := s.atu.dropped.set l.bay.val 0 l.bay.isLt } }

/-- TAKE_LOG_LINE: the oldest line is sent with its bay's dropped count (R158). -/
def execTakeLogLine (s : State) : Host.Outcome State Fault Refusal :=
  .next (match s.chooses .log, s.atu.ring with
    | true, l :: rest =>
      (s.logTaken l rest).transmit .log 0x83 0 (l.payload (s.atu.dropped.get l.bay))
    | _, _ => s)

/-- The source of the frame in transmission. -/
def State.sender (s : State) : Option Source := s.slc.transmitter.map fun f => f.source

/-- FRAME_END_OF_TRANSMISSION: an answer or a log notice has left; nothing happens at its source
(R172). -/
def execFrameEndOfTransmission (s : State) : Host.Outcome State Fault Refusal :=
  .next (match s.sender with
    | some .answer => s.freeTransmitter
    | some .log => s.freeTransmitter
    | some .batch => s
    | some (.attention _ _) => s
    | none => s)

end Sys2Proof.Machine
end

