-- ==== Sys2Proof/Machine/Collation.lean ====
section
/-! DEFINITION. Machine/Collation.lean: the commands of the Collation Buffer and of the parked slot: SYNC,
QUERY_BAY, BATCH_AGE_TICK, TAKE_BATCH_ENTRY, BATCH_END_OF_TRANSMISSION, HELD_RESULT_PLACEMENT and
PARKED_REQUEST_COMPLETION (sections 8.3 to 8.7, R175). -/

namespace Sys2Proof.Machine

/-! ## The QUERY_BAY answer (R142, R175) -/

/-- The result list of a bay: its held results in hold-queue order, then those in the slots of occupied
entries in opening order (R142). -/
def State.resultList (s : State) (b : BayId) : List ResultItem :=
  let item (inEntry : Bool) (r : Result) : ResultItem :=
    { tag := r.tag, kind := r.kind, outcome := r.outcome, inEntry := inEntry }
  (s.clb.hold.filter fun r => decide (r.bay = b)).map (item false)
    ++ s.clb.entries.filterMap fun e =>
      if e.board = boardOf b then (e.slots.get (slotOf b)).map (item true) else none

/-- A flight slot as QUERY_BAY shows it. -/
def Flight.view : Flight → SlotView
  | .empty => .empty
  | .step st => .step st.tag
  | .held t => .held t

/-- A place as QUERY_BAY shows it. -/
def Place.view : Place → SlotView
  | .step st => .step st.tag
  | .held t => .held t

/-- The number of held results of a bay (R115). -/
def Bay.heldCount (y : Bay) : Nat :=
  (match y.flight with
   | .held _ => 1
   | .empty => 0
   | .step _ => 0) + (y.places.filter Place.isHeld).length

/-- A flag as QUERY_BAY shows it (R156). -/
def Flag.view (f : Flag) : FlagView :=
  { state := f.state, count := f.count, seating := f.seating, data := f.data }

/-- The content of a QUERY_BAY answer, gathered now (Table 10.7). -/
def State.bayReport (s : State) (b : BayId) : BayReport :=
  let y := s.bay b
  { bay := b, seat := y.seat, seating := y.seating, power := y.power, variant := y.variant,
    bootTime := y.bootTime, link := y.link, token := y.token, stray := y.line.stray,
    garbage := y.line.garbage, flight := y.flight.view
    places := y.places.map Place.view
      ++ List.replicate (Config.stepPlaces - y.places.length) .empty
    heldResults := y.heldCount, calibrating := decide (y.mu.sampling = .calibrating),
    lowOffset := y.mu.lowOffset, highOffset := y.mu.highOffset, range := y.mu.range,
    rangeMode := y.params.rangeMode, monitorState := y.mu.monitorState,
    outOfBand := y.mu.outOfBand, monitorCount := y.params.monitorCount,
    lastSummary := y.mu.lastSummary, flags := allClasses.map fun c => (s.flag b c).view
    logDropped := s.atu.dropped.get b, results := s.resultList b }

/-! ## Parking (R139 to R142, R169) -/

/-- A request parked: every occupied entry takes its mark, and the mark count becomes their number; the
head is then due by its mark. -/
def State.park (s : State) (p : Parked) (mark : Entry → Entry) : State :=
  { s with
    clb := { s.clb with
      entries := s.clb.entries.map mark, markCount := s.clb.entries.length }
    slc := { s.slc with parked := some p } }.retest

/-- SYNC decided (Table 8.6). -/
def State.syncDecided (s : State) (tag : Tag) : State :=
  if s.slc.parked.isSome then s.answer 0x0B tag .busy .none
  else if s.clb.entries.isEmpty then s.answer 0x0B tag .ok .none
  else s.park (.sync tag) fun e => { e with syncMark := true }

/-- SYNC at its taking. -/
def State.requestSync (tag : Tag) (payload : List Byte) (s : State) : State :=
  s.checked 0x0B tag (readEmpty payload) (fun _ => true) fun _ => s.syncDecided tag

/-- SYNC. -/
def execSync (tag : Tag) (payload : List Byte) (s : State) : Host.Outcome State Fault Refusal :=
  .next (s.arrives 0x0B tag payload (State.requestSync tag payload))

/-- An occupied entry holds a result of bay `b` in a slot (R141). -/
def State.inBuffer (s : State) (b : BayId) : Bool :=
  s.clb.entries.any fun e => decide (e.board = boardOf b) && (e.slots.get (slotOf b)).isSome

/-- QUERY_BAY decided for a present bay (R141). -/
def State.queryDecided (s : State) (tag : Tag) (b : BayId) : State :=
  if !s.inBuffer b then s.answer 0x0C tag .ok (.bay (s.bayReport b))
  else if s.slc.parked.isSome then s.answer 0x0C tag .busy .none
  else s.park (.query tag b) fun e => { e with queryMark := true }

/-- QUERY_BAY at its taking: a number at or above the bay count is refused. -/
def State.requestQueryBay (tag : Tag) (payload : List Byte) (s : State) : State :=
  s.checked 0x0C tag (readQuery payload) (fun _ => true) fun n =>
    if h : n < 24 then
      if n < s.bayCount then s.queryDecided tag ⟨n, h⟩ else s.answer 0x0C tag .badTarget .none
    else s.answer 0x0C tag .badTarget .none

/-- QUERY_BAY. -/
def execQueryBay (tag : Tag) (payload : List Byte) (s : State) : Host.Outcome State Fault Refusal :=
  .next (s.arrives 0x0C tag payload (State.requestQueryBay tag payload))

/-- The parked request's answer is built and queued, and the slot is empty again (R169). -/
def State.completeParked (s : State) : State :=
  let freed : State := { s with slc := { s.slc with parked := none } }
  match s.slc.parked with
  | none => s
  | some (.sync tag) => freed.answer 0x0B tag .ok .none
  | some (.query tag b) => freed.answer 0x0C tag .ok (.bay (s.bayReport b))

/-- PARKED_REQUEST_COMPLETION: with no marked entry left, the parked request is completed (R169). -/
def execParkedRequestCompletion (s : State) : Host.Outcome State Fault Refusal :=
  .next (if s.clb.markCount = 0 then s.completeParked else s)

/-! ## Age (R133) -/

/-- An entry a tick older. -/
def Entry.tick (e : Entry) : Entry := { e with age := saturate Config.ageMost e.age }

/-- BATCH_AGE_TICK: the 1 ms tick of the Collation Buffer ages every occupied entry and tests the
head. -/
def execBatchAgeTick (s : State) : Host.Outcome State Fault Refusal :=
  .next { s with clb := { s.clb with entries := s.clb.entries.map Entry.tick } }.retest

/-! ## The taking of the head (R134, R135) -/

/-- The final mark of the head, decided at its taking: nothing pending, no other occupied entry and no
held result of its exchange (R134). -/
def State.finalMarkOf (s : State) (e : Entry) (rest : List Entry) : Bool :=
  match s.exchange? e.tag with
  | none => false
  | some x =>
    decide (x.pending = 0) && rest.all (fun e' => decide (e'.tag ≠ e.tag))
      && s.clb.hold.all fun r => decide (r.tag ≠ e.tag)

/-- The cancelled flag of an exchange. -/
def State.cancelledOf (s : State) (t : Tag) : Bool :=
  match s.exchange? t with
  | none => false
  | some x => x.cancelled

/-- The head after its taking. -/
def State.takenHead (s : State) (e : Entry) (rest : List Entry) : Entry :=
  { e with sending := true, finalMark := s.finalMarkOf e rest }

/-- TAKE_BATCH_ENTRY: the due head becomes SENDING, its content, final mark and cancelled flag fixed, and
its notice is sent (R134, R172). -/
def execTakeBatchEntry (s : State) : Host.Outcome State Fault Refusal :=
  .next (match s.chooses .batch, s.clb.entries with
    | true, e :: rest =>
      let e' := s.takenHead e rest
      let s' := { s with clb := { s.clb with entries := e' :: rest, offer := false } }
      s'.transmit .batch 0x81 e.tag (e'.payload (s.cancelledOf e.tag))
    | _, _ => s)

/-! ## The end of a batch notice (R136) -/

/-- Step 1: the entry is FREE and leaves the opening list; a marked one lowers the mark count. -/
def Clb.freeHead (c : Clb) (e : Entry) (rest : List Entry) : Clb :=
  { c with
    entries := rest
    markCount := if e.syncMark || e.queryMark then c.markCount - 1 else c.markCount }

/-- Steps 2 and 3: the bays with finals in the entry are reported, and a final-marked entry retires its
exchange; an entry dropped by a station reset reports nothing (R143). -/
def State.reportEntry (s : State) (e : Entry) : State :=
  if e.dropped then s
  else if e.finalMark then
    { s with exchanges := s.exchanges.filter fun x => decide (x.tag ≠ e.tag) }
  else s.modExchange e.tag fun x => { x with reported := x.reported ||| e.finals }

/-- The freeing of this entry brings the mark count to 0 (step 5). -/
def Clb.lastMark (c : Clb) (e : Entry) : Bool :=
  (e.syncMark || e.queryMark) && decide (c.markCount - 1 = 0)

/-- The six steps of R136. -/
def State.batchEnded (s : State) (e : Entry) (rest : List Entry) : State :=
  let last := s.clb.lastMark e
  let s := { s with clb := s.clb.freeHead e rest }
  let s := (s.reportEntry e).placeHeld
  (if last then s.completeParked else s).retest

/-- BATCH_END_OF_TRANSMISSION: the batch notice on the wire has left (R136). -/
def execBatchEndOfTransmission (s : State) : Host.Outcome State Fault Refusal :=
  .next (match s.sender, s.clb.entries with
    | some .batch, e :: rest => (s.batchEnded e rest).freeTransmitter
    | _, _ => s)

/-- HELD_RESULT_PLACEMENT: a placement pass over the hold queue (R130). -/
def execHeldResultPlacement (s : State) : Host.Outcome State Fault Refusal :=
  .next s.placeHeld.retest

end Sys2Proof.Machine
end

