-- ==== Sys2Proof/Machine/Attention.lean ====
section
/-! DEFINITION. Machine/Attention.lean: ACK_ATTENTION, TAKE_ATTENTION_NOTICE and
ATTENTION_END_OF_TRANSMISSION (sections 9.3 and 9.4). -/

namespace Sys2Proof.Machine

/-! ## ACK_ATTENTION (R154) -/

/-- A class set names a class. -/
def namesClass (classes : BitVec 16) (c : AttClass) : Bool := classes.getLsbD c.code.val

/-- The flag is raised and its standing condition holds: it is held (Table 9.4). -/
def State.heldFlag (s : State) (b : BayId) (c : AttClass) : Bool :=
  (s.flag b c).isRaised && s.standing b c

/-- One named flag acknowledged: cleared unless it is CLEAR or held (Table 9.4). -/
def State.ackFlag (s : State) (b : BayId) (c : AttClass) : State :=
  if (s.flag b c).isRaised && !s.standing b c then s.clearFlag b c else s

/-- The named flags of one bay acknowledged, in class order. -/
def State.ackBay (s : State) (classes : BitVec 16) (b : BayId) : State :=
  allClasses.foldl (fun s c => if namesClass classes c then s.ackFlag b c else s) s

/-- The held list: (bay, class) pairs in ascending bay order and then class order. -/
def State.heldList (s : State) (S : BaySet) (classes : BitVec 16) : List (BayId × AttClass) :=
  allFlags.filter fun x => inSet S x.1 && namesClass classes x.2 && s.heldFlag x.1 x.2

/-- ACK_ATTENTION at its taking: the pin check alone decides a bay. -/
def State.requestAckAttention (tag : Tag) (payload : List Byte) (s : State) : State :=
  s.checked 0x0D tag (readAck payload) AckRequest.meaningful fun r =>
    match s.resolve r.target with
    | .error e => s.answer 0x0D tag e .none
    | .ok S =>
      let v := verdictsOf S fun b => if s.stale r.target.pins b then some .stale else none
      (s.forBays v.accepted fun b s => s.ackBay r.classes b).answer 0x0D tag v.status
        (.acknowledged v (s.heldList v.accepted r.classes))

/-- ACK_ATTENTION. -/
def execAckAttention (tag : Tag) (payload : List Byte) (s : State) :
    Host.Outcome State Fault Refusal :=
  .next (s.arrives 0x0D tag payload (State.requestAckAttention tag payload))

/-! ## Attention notices (R151) -/

/-- The taken entry leaves the queue and its flag becomes NOTIFYING. -/
def State.noticeTaken (s : State) (b : BayId) (c : AttClass) (rest : List (BayId × AttClass)) :
    State :=
  { s with atu := { s.atu with queue := rest } }.setFlag b c
    { s.flag b c with state := .notifying, queued := false }

/-- TAKE_ATTENTION_NOTICE: the notice-queue head is sent with its flag's content as it stands now. -/
def execTakeAttentionNotice (s : State) : Host.Outcome State Fault Refusal :=
  .next (match s.chooses .attention, s.atu.queue with
    | true, (b, c) :: rest =>
      (s.noticeTaken b c rest).transmit (.attention b c) 0x82 0
        (attentionPayload b c (s.level c) (s.flag b c))
    | _, _ => s)

/-- The flag of a notice that has left becomes NOTIFIED if it is still NOTIFYING. -/
def State.noticeEnded (s : State) (b : BayId) (c : AttClass) : State :=
  match (s.flag b c).state with
  | .notifying => s.setFlag b c { s.flag b c with state := .notified }
  | .clear | .raised | .notified => s

/-- ATTENTION_END_OF_TRANSMISSION: the attention notice on the wire has left. -/
def execAttentionEndOfTransmission (s : State) : Host.Outcome State Fault Refusal :=
  .next (match s.sender with
    | some (.attention b c) => (s.noticeEnded b c).freeTransmitter
    | some .answer => s
    | some .batch => s
    | some .log => s
    | none => s)

end Sys2Proof.Machine
end

