-- ==== Sys2Proof/Machine/Station.lean ====
section
/-! DEFINITION. Machine/Station.lean: station reset and power-on reset of every block, and the station
requests IDENTIFY, CONFIGURE_STATION, RESET_STATION and UNKNOWN_KIND_REQUEST, with USB_BUS_RESET and
POWER_ON_RESET (sections 1.9, 10.5 and 10.6). -/

namespace Sys2Proof.Machine

/-! ## IDENTIFY (R173) -/

/-- IDENTIFY at its taking. -/
def State.requestIdentify (tag : Tag) (payload : List Byte) (s : State) : State :=
  s.checked 0x01 tag (readEmpty payload) (fun _ => true) fun _ =>
    s.answer 0x01 tag .ok (.identity s.bayCount)

/-- IDENTIFY. -/
def execIdentify (tag : Tag) (payload : List Byte) (s : State) : Host.Outcome State Fault Refusal :=
  .next (s.arrives 0x01 tag payload (State.requestIdentify tag payload))

/-! ## CONFIGURE_STATION (R174) -/

/-- A value limited to a range. -/
def clampRange (least most v : Nat) : Nat := max least (min most v)

/-- The nine levels carried, each clamped, in class order. -/
def clampLevels (ls : List Nat) : Vector Nat 9 :=
  Vector.ofFn fun i => clampRange 0 3 (ls.getD i.val 0)

/-- The station with the present values applied, before any consequence. -/
def State.storeStation (s : State) (r : StationSettings) : State :=
  { s with
    seatDebounceMs := (r.seatDebounceMs.map (clampRange 20 2000)).getD s.seatDebounceMs
    atu := { s.atu with
      threshold := (r.threshold.map (clampRange 1 4)).getD s.atu.threshold
      levels := (r.levels.map clampLevels).getD s.atu.levels }
    clb := { s.clb with
      pressure := (r.pressure.map (clampRange 2 8)).getD s.clb.pressure
      holdMs := (r.holdMs.map (clampRange 1 5000)).getD s.clb.holdMs } }

/-- The consequences: one re-evaluation if the threshold or the levels are present, and the head
tested again if a batch parameter is. -/
def State.configureStation (s : State) (r : StationSettings) : State :=
  let s := s.storeStation r
  let s := if r.threshold.isSome || r.levels.isSome then s.reevaluate else s
  if r.pressure.isSome || r.holdMs.isSome then s.retest else s

/-- The station parameters now in force. -/
def State.stationReport (s : State) : StationReport :=
  { threshold := s.atu.threshold, levels := s.atu.levels, pressure := s.clb.pressure,
    holdMs := s.clb.holdMs, seatDebounceMs := s.seatDebounceMs }

/-- CONFIGURE_STATION at its taking. -/
def State.requestConfigureStation (tag : Tag) (payload : List Byte) (s : State) : State :=
  s.checked 0x02 tag (readStationSettings payload) StationSettings.meaningful fun r =>
    let s := s.configureStation r
    s.answer 0x02 tag .ok (.station s.stationReport)

/-- CONFIGURE_STATION. -/
def execConfigureStation (tag : Tag) (payload : List Byte) (s : State) :
    Host.Outcome State Fault Refusal :=
  .next (s.arrives 0x02 tag payload (State.requestConfigureStation tag payload))

/-! ## Unknown kinds (R167) -/

/-- A frame of an unknown kind at its taking, whatever its tag and payload. -/
def State.requestUnknown (kind : Byte) (tag : Tag) (s : State) : State :=
  s.answer kind tag .unknownKind .none

/-- UNKNOWN_KIND_REQUEST: a kind that is a request kind makes no such frame. -/
def execUnknownKindRequest (kind : Byte) (tag : Tag) (payload : List Byte) (s : State) :
    Host.Outcome State Fault Refusal :=
  .next (if isRequestKind kind then s else s.arrives kind tag payload (State.requestUnknown kind tag))

/-! ## Station reset (R22, R33, R62, R67, R90, R98, R124, R143, R159) -/

/-- The Measurement Unit at station reset: sampling stopped, a calibration abandoned, the last summary
absent; the offsets and the range in use are kept (R33, R38, R39, R62, R67). -/
def Mu.stationReset (m : Mu) : Mu :=
  { m.stopSampling with calibration := none, lastSummary := none }

/-- The power state at station reset (Table 1.8). -/
def Power.stationReset : Power → Power
  | .powering | .booting | .on | .tripped => .off
  | .none => .none
  | .off => .off

/-- A bay at station reset: its seat state, seating number, debounce and removal timers, variant, boot
time, sensor pin and offsets are kept; its steps go without results (R22, R98, R124). -/
def Bay.stationReset (y : Bay) : Bay :=
  { y with
    power := y.power.stationReset, earlyReady := false, bootTimer := none, rise := none,
    key := none, bootDeadline := none, limitTrip := none, brownoutTrip := none, lastBelow := true,
    outputGood := false, supply := .reset, powerKey := false, volumeKey := false, token := 0,
    link := .down, line := .reset, flight := .empty, places := [], windowDelay := none,
    params := .reset, mu := y.mu.stationReset }

/-- An entry that is SENDING at station reset, its marks cleared (R143). -/
def Entry.orphaned (e : Entry) : Entry :=
  { e with syncMark := false, queryMark := false, dropped := true }

/-- The Collation Buffer at station reset: only an entry that is SENDING stays (R143). -/
def Clb.stationReset (c : Clb) : Clb :=
  { Clb.reset with entries := (c.entries.filter fun e => e.sending).map Entry.orphaned }

/-- The Attention Unit at station reset, before the SEATED raises (R159, steps 1 to 3). -/
def Atu.stationReset (a : Atu) : Atu := { Atu.reset with nextPosition := a.nextPosition }

/-- The bays that are SEATED. -/
def State.seatedBays (s : State) : BaySet := setOf fun b => decide ((s.bay b).seat = .seated)

/-- The SEATED raises at station reset, in ascending bay order (R159, step 4). -/
def State.raiseSeated (s : State) : State :=
  s.forBays s.seatedBays fun b s => s.raiseFlag b .seated .none

/-- A persistent entry of the Group Table is kept, every other is undefined (R90). -/
def Group.stationReset (g : Group) : Group :=
  if g.defined && g.persistent then g else .undefined

/-- Station reset at every block; the Station Link Controller's part is its count and the station
parameters (R176, step 2). The receiver, the answers and the frame in transmission are kept. -/
def State.stationReset (s : State) : State :=
  let s := s.mapBays fun _ y => y.stationReset
  let s := { s with
    seatDebounceMs := 200
    groups := Vector.ofFn fun n => (s.group n).stationReset
    exchanges := []
    clb := s.clb.stationReset
    atu := s.atu.stationReset
    slc := { s.slc with framesDropped := 0 } }
  s.raiseSeated

/-! ## RESET_STATION (R176) -/

/-- Step 1: a parked request is answered RESET, and the slot is emptied. -/
def State.answerParkedReset (s : State) : State :=
  let freed : State := { s with slc := { s.slc with parked := none } }
  match s.slc.parked with
  | none => s
  | some (.sync tag) => freed.answer 0x0B tag .reset .none
  | some (.query tag _) => freed.answer 0x0C tag .reset .none

/-- RESET_STATION at its taking. -/
def State.requestResetStation (tag : Tag) (payload : List Byte) (s : State) : State :=
  s.checked 0x0E tag (readEmpty payload) (fun _ => true) fun _ =>
    (s.answerParkedReset.stationReset).answer 0x0E tag .ok .none

/-- RESET_STATION. -/
def execResetStation (tag : Tag) (payload : List Byte) (s : State) :
    Host.Outcome State Fault Refusal :=
  .next (s.arrives 0x0E tag payload (State.requestResetStation tag payload))

/-! ## USB bus reset or detach (R177) -/

/-- The Station Link Controller at a station link reset: receiver in HUNT, answers and parked request
discarded; what is left of a frame in transmission is discarded at the port. -/
def Slc.linkReset (l : Slc) : Slc :=
  { receiver := .hunting, framesDropped := 0, answers := [], parked := none
    transmitter := l.transmitter.map fun f => { f with discarding := true } }

/-- USB_BUS_RESET. -/
def execUsbBusReset (s : State) : Host.Outcome State Fault Refusal :=
  let s := s.stationReset
  .next { s with slc := s.slc.linkReset }

/-! ## Power-on reset (R21, R178) -/

/-- The bay count of the straps: board 2 counts only beside board 1. -/
def latchedCount (strap1 strap2 : Bool) : Nat :=
  if strap1 then (if strap2 then 24 else 16) else 8

/-- A bay after power-on reset: its sensor pin is what it was, and a present bay whose sensor is closed
takes one sensor closes event (R21). -/
def Bay.powerOnReset (y : Bay) (present : Bool) (debounceMs : Nat) : Bay :=
  if y.sensorClosed && present then Bay.reset.sensorCloses debounceMs
  else { Bay.reset with sensorClosed := y.sensorClosed }

/-- POWER_ON_RESET: the bay count is latched from the straps and every block takes its power-on values;
the queue of waiting commands is not the part's. -/
def execPowerOnReset (strap1 strap2 : Bool) (s : State) : Host.Outcome State Fault Refusal :=
  let count := latchedCount strap1 strap2
  .next { State.reset with
    bayCount := count
    bays := Vector.ofFn fun b =>
      (s.bay b).powerOnReset (decide (b.val < count)) State.reset.seatDebounceMs
    pending := s.pending }

end Sys2Proof.Machine
end

