-- ==== Sys2Proof/Machine/Receiver.lean ====
section
/-! DEFINITION. Machine/Receiver.lean: the frame receiver (section 10.2) and the taking of a gathered frame
(section 10.3): BYTE_TAKEN_FROM_PIPE, FRAME_DISCARDED, GAP_TIMER_EXPIRY and HELD_FRAME_TAKEN. -/

namespace Sys2Proof.Machine

/-! ## Taking a gathered frame (R166, R167) -/

/-- A request taken: its kind selects the owner, and a kind that is no request kind is answered
UNKNOWN_KIND (R167, Table 11.2). -/
def State.takeRequest (kind : Byte) (tag : Tag) (payload : List Byte) (s : State) : State :=
  match kind.toNat with
  | 0x01 => s.requestIdentify tag payload
  | 0x02 => s.requestConfigureStation tag payload
  | 0x03 => s.requestConfigureBay tag payload
  | 0x04 => s.requestDefineGroup tag payload
  | 0x05 => s.requestDropGroups tag payload
  | 0x06 => s.requestPowerOn tag payload
  | 0x07 => s.requestPowerOff tag payload
  | 0x08 => s.requestZero tag payload
  | 0x09 => s.requestSend tag payload
  | 0x0A => s.requestCancel tag payload
  | 0x0B => s.requestSync tag payload
  | 0x0C => s.requestQueryBay tag payload
  | 0x0D => s.requestAckAttention tag payload
  | 0x0E => s.requestResetStation tag payload
  | _ => s.requestUnknown kind tag

/-- A body taken: kind, tag (little-endian), payload. Every body has at least these 3 bytes (R163). -/
def State.takeBody (body : List Byte) (s : State) : State :=
  match body with
  | kind :: t0 :: t1 :: payload => s.takeRequest kind (t1 ++ t0) payload
  | [] => s
  | [_] => s
  | [_, _] => s

/-! ## The receiver (R163 to R165) -/

/-- The receiver after a sync byte: LENGTH, with the gap timer started. -/
def Receiver.synced : Receiver :=
  { Receiver.hunting with state := .length, gap := some (Timer.start Config.gapMs) }

/-- A byte in HUNT: a sync byte begins a frame, any other is discarded uncounted (R163). -/
def Receiver.hunt (x : Byte) : Receiver :=
  if x = Config.syncByte then Receiver.synced else Receiver.hunting

/-- The two length bytes of a discarded frame taken again in HUNT, the first one first (R163). A byte
rescanned in LENGTH does not restart the timer (R165). -/
def Receiver.rescan (l0 l1 : Byte) : Receiver :=
  if l0 = Config.syncByte then { Receiver.synced with lengthBytes := [l1] } else Receiver.hunt l1

/-- The gap timer restarts at a byte taken (R165). -/
def Receiver.regap (r : Receiver) : Receiver := { r with gap := some (Timer.start Config.gapMs) }

/-- A frame discarded: the frames-dropped count up by one, the receiver as given (R164). -/
def State.discardFrame (s : State) (r : Receiver) : State :=
  { s with slc := { s.slc with framesDropped := saturate 255 s.slc.framesDropped, receiver := r } }

/-- The state with another receiver. -/
def State.withReceiver (s : State) (r : Receiver) : State :=
  { s with slc := { s.slc with receiver := r } }

/-- A byte in LENGTH. -/
def State.takeLength (s : State) (x : Byte) : State :=
  let r := s.slc.receiver
  match r.lengthBytes with
  | [] => s.withReceiver { r.regap with lengthBytes := [x] }
  | l0 :: _ =>
    let n := lengthOf l0 x
    if lengthInRange n then
      s.withReceiver { r.regap with state := .body, lengthBytes := [l0, x], length := n, body := [] }
    else s.discardFrame (Receiver.rescan l0 x)

/-- A byte in BODY: the body is whole when it has the length given (R164). -/
def State.takeBodyByte (s : State) (x : Byte) : State :=
  let r := s.slc.receiver
  let body := r.body ++ [x]
  s.withReceiver
    { r.regap with
      body := body
      state := if r.length ≤ body.length then .check else .body }

/-- A byte in CHECK: after the second, the frame is good when the check matches, and is discarded
otherwise (R164). -/
def State.takeCheck (s : State) (x : Byte) : State :=
  let r := s.slc.receiver
  match r.checkBytes with
  | [] => s.withReceiver { r.regap with checkBytes := [x] }
  | c0 :: _ =>
    if [c0, x] = checkBytesOf r.body then s.goodFrame r.body (State.takeBody r.body)
    else s.discardFrame .hunting

/-- BYTE_TAKEN_FROM_PIPE: the receiver takes a byte; while the held mark is set it reads none (R166). -/
def execByteTakenFromPipe (x : Byte) (s : State) : Host.Outcome State Fault Refusal :=
  .next (
    if s.slc.receiver.held then s
    else
      match s.slc.receiver.state with
      | .hunt => s.withReceiver (Receiver.hunt x)
      | .length => s.takeLength x
      | .body => s.takeBodyByte x
      | .check => s.takeCheck x)

/-- FRAME_DISCARDED: a whole inbound frame is discarded, for its check or for its length, whose two bytes
are then rescanned (R163, R164). While a frame is held the receiver reads nothing. -/
def execFrameDiscarded (cause : DiscardCause) (s : State) : Host.Outcome State Fault Refusal :=
  .next (
    if s.slc.receiver.held then s
    else
      match cause with
      | .checkMismatch => s.discardFrame .hunting
      | .lengthOutOfRange l0 l1 =>
        if lengthInRange (lengthOf l0 l1) then s else s.discardFrame (Receiver.rescan l0 l1))

/-- GAP_TIMER_EXPIRY: the frame in progress is discarded and counted (R165). -/
def execGapTimerExpiry (s : State) : Host.Outcome State Fault Refusal :=
  .next (if s.slc.receiver.gap.isSome then s.discardFrame .hunting else s)

/-- HELD_FRAME_TAKEN: with a place released, the held frame is taken, the held mark cleared, and the
receiver returns to HUNT (R166). -/
def execHeldFrameTaken (s : State) : Host.Outcome State Fault Refusal :=
  .next (
    if s.slc.receiver.held && decide (s.slc.claimed < Config.answerPlaces) then
      (s.withReceiver .hunting).takeBody s.slc.receiver.body
    else s)

end Sys2Proof.Machine
end

