-- ==== Sys2Proof/Machine/Dispatch.lean ====
section
/-! DEFINITION. Machine/Dispatch.lean: which meaning each command has, one arm per constructor of Instr. -/

namespace Sys2Proof.Machine

/-- The effect of a command on everything but the queue of waiting commands. -/
def exec (i : Instr) (s : State) : Host.Outcome State Fault Refusal :=
  match i with
  | .sensorCloses b => Sys2Proof.Machine.execSensorCloses b s
  | .sensorOpens b => Sys2Proof.Machine.execSensorOpens b s
  | .seatDebounceExpiry b => Sys2Proof.Machine.execSeatDebounceExpiry b s
  | .removalTimerExpiry b => Sys2Proof.Machine.execRemovalTimerExpiry b s
  | .outputGood b => Sys2Proof.Machine.execOutputGood b s
  | .limitEngaged b => Sys2Proof.Machine.execLimitEngaged b s
  | .limitReleased b => Sys2Proof.Machine.execLimitReleased b s
  | .belowBrownout b => Sys2Proof.Machine.execBelowBrownout b s
  | .aboveBrownout b => Sys2Proof.Machine.execAboveBrownout b s
  | .riseTimerExpiry b => Sys2Proof.Machine.execRiseTimerExpiry b s
  | .keyTimerExpiry b => Sys2Proof.Machine.execKeyTimerExpiry b s
  | .bootDeadlineExpiry b => Sys2Proof.Machine.execBootDeadlineExpiry b s
  | .limitTripTimerExpiry b => Sys2Proof.Machine.execLimitTripTimerExpiry b s
  | .brownoutTripTimerExpiry b => Sys2Proof.Machine.execBrownoutTripTimerExpiry b s
  | .powerOn tag payload => Sys2Proof.Machine.execPowerOn tag payload s
  | .powerOff tag payload => Sys2Proof.Machine.execPowerOff tag payload s
  | .zero tag payload => Sys2Proof.Machine.execZero tag payload s
  | .calibrationEnd b => Sys2Proof.Machine.execCalibrationEnd b s
  | .configureBay tag payload => Sys2Proof.Machine.execConfigureBay tag payload s
  | .defineGroup tag payload => Sys2Proof.Machine.execDefineGroup tag payload s
  | .dropGroups tag payload => Sys2Proof.Machine.execDropGroups tag payload s
  | .send tag payload => Sys2Proof.Machine.execSend tag payload s
  | .cancel tag payload => Sys2Proof.Machine.execCancel tag payload s
  | .sync tag payload => Sys2Proof.Machine.execSync tag payload s
  | .queryBay tag payload => Sys2Proof.Machine.execQueryBay tag payload s
  | .ackAttention tag payload => Sys2Proof.Machine.execAckAttention tag payload s
  | .identify tag payload => Sys2Proof.Machine.execIdentify tag payload s
  | .configureStation tag payload => Sys2Proof.Machine.execConfigureStation tag payload s
  | .resetStation tag payload => Sys2Proof.Machine.execResetStation tag payload s
  | .unknownKindRequest kind tag payload => Sys2Proof.Machine.execUnknownKindRequest kind tag payload s
  | .periodBoundary b code => Sys2Proof.Machine.execPeriodBoundary b code s
  | .windowCompletion b which => Sys2Proof.Machine.execWindowCompletion b which s
  | .settleTimerExpiry b => Sys2Proof.Machine.execSettleTimerExpiry b s
  | .uplinkByte b x => Sys2Proof.Machine.execUplinkByte b x s
  | .framingFault b => Sys2Proof.Machine.execFramingFault b s
  | .lineTimerExpiry b => Sys2Proof.Machine.execLineTimerExpiry b s
  | .downlinkEndOfTransmission b => Sys2Proof.Machine.execDownlinkEndOfTransmission b s
  | .stepDispatch b => Sys2Proof.Machine.execStepDispatch b s
  | .replyDeadlineExpiry b => Sys2Proof.Machine.execReplyDeadlineExpiry b s
  | .windowDelayExpiry b => Sys2Proof.Machine.execWindowDelayExpiry b s
  | .batchAgeTick => Sys2Proof.Machine.execBatchAgeTick s
  | .takeAnswer => Sys2Proof.Machine.execTakeAnswer s
  | .heldFrameTaken => Sys2Proof.Machine.execHeldFrameTaken s
  | .takeAttentionNotice => Sys2Proof.Machine.execTakeAttentionNotice s
  | .takeBatchEntry => Sys2Proof.Machine.execTakeBatchEntry s
  | .takeLogLine => Sys2Proof.Machine.execTakeLogLine s
  | .batchEndOfTransmission => Sys2Proof.Machine.execBatchEndOfTransmission s
  | .heldResultPlacement => Sys2Proof.Machine.execHeldResultPlacement s
  | .parkedRequestCompletion => Sys2Proof.Machine.execParkedRequestCompletion s
  | .attentionEndOfTransmission => Sys2Proof.Machine.execAttentionEndOfTransmission s
  | .frameEndOfTransmission => Sys2Proof.Machine.execFrameEndOfTransmission s
  | .frameDiscarded cause => Sys2Proof.Machine.execFrameDiscarded cause s
  | .gapTimerExpiry => Sys2Proof.Machine.execGapTimerExpiry s
  | .usbBusReset => Sys2Proof.Machine.execUsbBusReset s
  | .powerOnReset strap1 strap2 => Sys2Proof.Machine.execPowerOnReset strap1 strap2 s
  | .byteTakenFromPipe x => Sys2Proof.Machine.execByteTakenFromPipe x s

end Sys2Proof.Machine
end

