-- ==== Sys2Proof/Safety.lean ====
section
/-! DEFINITION. Safety.lean: what the manual promises of every state: the relations that each step keeps,
in the terms the claims use. -/

namespace Sys2Proof.Machine

/-! ## Seat, power and supply (Tables 1.1 and 1.2, R5) -/

/-- A bay is SEATED exactly when its power state is not NONE; its supply output is on exactly in
POWERING, BOOTING and ON; the power key is pressed in POWERING alone, and the volume-down key only
beside it. -/
structure Bay.PowerLegal (y : Bay) : Prop where
  seated : y.seat = .seated ↔ y.power ≠ .none
  supply : y.supply.on = y.power.outputOn
  key    : y.powerKey = true → y.power = .powering
  volume : y.volumeKey = true → y.powerKey = true

/-- Every bay's seat, power and supply agree. -/
def State.PowerLegal (s : State) : Prop := ∀ b, (s.bay b).PowerLegal

/-! ## Link states (Table 7.6, R104) -/

/-- The link states of a step in flight. -/
def Link.ofStep : Link → Bool
  | .sendingLine | .awaiting | .measuring => true
  | .down | .idle | .holding => false

/-- DOWN exactly while the bay is not ON; a step in flight exactly in its three link states; IDLE with
no held result, and HOLDING with one; at most four places occupied. -/
structure Bay.LinkLegal (y : Bay) : Prop where
  down    : y.link = .down ↔ y.power ≠ .on
  flight  : y.flight.isStep = true ↔ y.link.ofStep = true
  idle    : y.link = .idle → y.holdsResult = false
  holding : y.link = .holding → y.holdsResult = true
  places  : y.places.length ≤ Config.stepPlaces

/-- Every bay's link state agrees with its power state and its flight slot. -/
def State.LinkLegal (s : State) : Prop := ∀ b, (s.bay b).PowerLegal ∧ (s.bay b).LinkLegal

/-! ## The Measurement Unit (R23, R27, R30, R37, R55, R57) -/

/-- The unit samples exactly while the supply output is on; offsets within the limits of R37; blanking
at most 2; down count below 64 and 0 unless the range is HIGH; the out-of-band count at most
monitor_count; WATCHING only while sampling, and a monitor window only while WATCHING. -/
structure Bay.UnitLegal (y : Bay) : Prop where
  sampling  : y.mu.sampling = .sampling ↔ y.power.outputOn = true
  lowOffset : withinLimits y.mu.lowOffset = true
  highOffset : withinLimits y.mu.highOffset = true
  blanking  : y.mu.blanking ≤ 2
  downCount : y.mu.downCount < Config.downSwitchCount
  downHigh  : y.mu.downCount ≠ 0 → y.mu.range = .high
  outOfBand : y.mu.outOfBand ≤ y.params.monitorCount
  watching  : y.mu.monitorState = .watching → y.mu.sampling = .sampling
  monitor   : y.mu.monitorAcc.state ≠ .free → y.mu.monitorState = .watching
  exchange  : y.mu.exchangeAcc.state ≠ .free → y.mu.sampling = .sampling

/-- Every Measurement Unit is as its bay's power state wants it. -/
def State.UnitLegal (s : State) : Prop := ∀ b, (s.bay b).PowerLegal ∧ (s.bay b).UnitLegal

/-! ## Bay parameters (Table 6.6, R94, R95) -/

/-- A value of a range and a step. -/
def stepped (step least most v : Nat) : Prop := least ≤ v ∧ v ≤ most ∧ v % step = 0

/-- A current a sample can carry. -/
def currentInRange (x : Int) : Prop := Config.currentLeast ≤ x ∧ x ≤ Config.currentMost

/-- Every stored parameter has an allowed value of Table 6.6, and the two relations of R95 hold. -/
structure Params.Legal (p : Params) : Prop where
  supply    : stepped 10 3000 4600 p.supplyMv
  limit     : stepped 10 100 4000 p.limitMa
  trip      : stepped 1 1 1000 p.tripMs
  brownout  : stepped 10 2500 4400 p.brownoutMv
  key       : stepped 1 100 5000 p.keyMs
  boot      : stepped 1 1000 120000 p.bootDeadlineMs
  reply     : stepped 1 10 60000 p.replyDeadlineMs
  extend    : p.extendLimit ≤ 15
  settle    : p.settleMs ≤ 500
  window    : stepped 1 10 30000 p.monitorWindow
  lo        : currentInRange p.monitorLo
  hi        : currentInRange p.monitorHi
  count     : p.monitorCount ∈ [1, 2, 3, 4, 8, 16, 32, 64]
  headroom  : p.brownoutMv ≤ p.supplyMv - 200
  band      : p.monitorLo ≤ p.monitorHi

/-- Every bay's parameters are allowed ones. -/
def State.ParamsLegal (s : State) : Prop := ∀ b, (s.bay b).params.Legal

/-! ## The exchange table (R99, R113) -/

/-- A record's tag is not 0, its pending set lies within its target set, and it is OPEN exactly while
that set holds a bay. -/
structure Exchange.Legal (x : Exchange) : Prop where
  tag     : x.tag ≠ 0
  pending : ∀ b, inSet x.pending b = true → inSet x.target b = true
  opened  : x.state = .opened ↔ x.pending ≠ 0

/-- At most 32 records, no two with one tag, each as R99 has it. -/
structure State.ExchangesLegal (s : State) : Prop where
  count   : s.exchanges.length ≤ Config.exchangeRecords
  tags    : (s.exchanges.map fun x => x.tag).Nodup
  records : ∀ x ∈ s.exchanges, x.Legal

/-! ## The Collation Buffer (R125, R130, R139) -/

/-- The entry carries the mark of the parked request. -/
def Entry.marked (e : Entry) : Bool := e.syncMark || e.queryMark

/-- The keys of the OPEN entries. -/
def openKeys (es : List Entry) : List (Tag × Fin 3) :=
  (es.filter fun e => !e.sending).map fun e => (e.tag, e.board)

/-- At most eight occupied entries, no two OPEN ones with one key, only the head SENDING; results wait in
the hold queue only while all eight are occupied; the mark count counts the marked entries. -/
structure Clb.Legal (c : Clb) : Prop where
  count   : c.entries.length ≤ Config.batchEntries
  keys    : (openKeys c.entries).Nodup
  sending : ∀ e ∈ c.entries.tail, e.sending = false
  hold    : c.hold ≠ [] → c.entries.length = Config.batchEntries
  marks   : c.markCount = (c.entries.filter Entry.marked).length

/-! ## The steps and the finals of an exchange (R103, R113, R134, R137) -/

/-- The number of steps of an exchange at a bay, in flight and queued. -/
def Bay.stepsOf (y : Bay) (t : Tag) : Nat :=
  (match y.flight with
   | .step st => if st.tag = t then 1 else 0
   | .empty => 0
   | .held _ => 0) + (y.places.filter (Place.isStepOf t)).length

/-- The bay is pending in the record of a tag. -/
def State.pendingAt (s : State) (t : Tag) (b : BayId) : Bool :=
  match s.exchange? t with
  | none => false
  | some x => inSet x.pending b

/-- The number of finals of an exchange from a bay that wait in the Collation Buffer: in the slots of the
entries that no station reset has dropped, and in the hold queue. -/
def State.finalsAt (s : State) (t : Tag) (b : BayId) : Nat :=
  (s.clb.entries.filter fun e => !e.dropped && decide (e.tag = t) && e.hasFinal b).length
    + (s.clb.hold.filter fun r => decide (r.tag = t) && decide (r.bay = b)).length

/-- A bay holds exactly one step of an exchange while it is pending in it, and no other step; each target
bay of a record is in exactly one of its pending set, a final slot, the hold queue and its reported
set; entries and held finals belong to records, but for an entry that a station reset dropped; and
the exchange of a final-marked entry has nothing pending and nothing else in the buffer. -/
structure State.AccountsLegal (s : State) : Prop where
  link      : s.LinkLegal
  exchanges : s.ExchangesLegal
  clb       : s.clb.Legal
  steps     : ∀ t b, (s.bay b).stepsOf t = (s.pendingAt t b).toNat
  finals    : ∀ x ∈ s.exchanges, ∀ b, (inSet x.pending b).toNat + s.finalsAt x.tag b
                + (inSet x.reported b).toNat = (inSet x.target b).toNat
  homes     : ∀ e ∈ s.clb.entries, e.dropped = false → (s.exchange? e.tag).isSome = true
  held      : ∀ r ∈ s.clb.hold, r.kind = .final ∧ (s.exchange? r.tag).isSome = true
  sending   : ∀ e ∈ s.clb.entries, e.finalMark = true ∨ e.dropped = true → e.sending = true
  last      : ∀ e rest, s.clb.entries = e :: rest → e.finalMark = true → e.dropped = false →
                (∀ b, s.pendingAt e.tag b = false) ∧ (∀ e' ∈ rest, e'.tag ≠ e.tag)
                  ∧ ∀ r ∈ s.clb.hold, r.tag ≠ e.tag

/-! ## The notice queue (R147, R148, R150, R152) -/

/-- No two entries for one flag, and a flag's queued mark set exactly while its entry is in the queue,
which it is only in RAISED, and there exactly when its class qualifies. The queue is in order of level
and raise position; no two raised flags share a raise position, and none has one still to be given. -/
structure State.NoticesLegal (s : State) : Prop where
  once      : s.atu.queue.Nodup
  queued    : ∀ b c, (s.flag b c).queued = true ↔ (b, c) ∈ s.atu.queue
  raised    : ∀ b c, (s.flag b c).queued = true → (s.flag b c).state = .raised
  qualified : ∀ b c, (s.flag b c).state = .raised →
                ((s.flag b c).queued = true ↔ 1 ≤ s.level c ∧ s.atu.threshold ≤ s.level c)
  order     : s.atu.queue.Pairwise fun x y => s.level y.2 < s.level x.2
                ∨ (s.level x.2 = s.level y.2
                  ∧ (s.flag x.1 x.2).position < (s.flag y.1 y.2).position)
  distinct  : ∀ b c b' c', (s.flag b c).state ≠ .clear → (s.flag b' c').state ≠ .clear →
                (s.flag b c).position = (s.flag b' c').position → (b, c) = (b', c')
  positions : ∀ b c, (s.flag b c).state ≠ .clear → (s.flag b c).position < s.atu.nextPosition

/-! ## The link and the log (R157, R164, R166) -/

/-- At most four places of the answer queue claimed, at most 64 lines in the ring, and the
frames-dropped count at most 255. -/
structure State.LinkBounds (s : State) : Prop where
  claimed : s.slc.claimed ≤ Config.answerPlaces
  ring    : s.atu.ring.length ≤ Config.logLines
  dropped : s.slc.framesDropped ≤ 255

end Sys2Proof.Machine
end

