-- ==== Sys2Proof/Certificates/Slice0/Obligations.lean ====
section
/-! DEFINITION. Obligations.lean: the statements for the provers. Each rests on the rule or section its
docstring cites; one that rests on a choice of the model says so and names the log entry. -/

open Sys2Proof Sys2Proof.Machine

/-! ## Terms of the statements -/

namespace Sys2Proof.Claims

/-- A request frame can arrive and be taken: no frame is held, a place of the answer queue is free, and
the payload fits a frame (R161, R166). That a request row is such an arrival whole, whatever frame the
receiver was gathering, is the model's (log entry 11). -/
def Arrives (s : State) (payload : List Byte) : Prop :=
  s.slc.receiver.held = false ∧ s.slc.claimed < 4 ∧ payloadFits payload = true

/-- The state at the taking of a good frame: frames-dropped 0 and the receiver in HUNT (R164). A frame in
progress at a request row is given up, which is the model's (log entry 11). -/
def atTaking (s : State) : State :=
  { s with slc := { s.slc with framesDropped := 0, receiver := .hunting } }

/-- An answer stands at the tail of the queue, behind those that stood there (R168). -/
def Answered (s t : State) (a : Answer) : Prop := t.slc.answers = s.slc.answers ++ [a]

/-- Nothing of the exchange table, the Collation Buffer, the Group Table, the station's settings and the
parked slot is changed. -/
structure SameElsewhere (s t : State) : Prop where
  bayCount  : t.bayCount = s.bayCount
  debounce  : t.seatDebounceMs = s.seatDebounceMs
  groups    : t.groups = s.groups
  exchanges : t.exchanges = s.exchanges
  clb       : t.clb = s.clb
  parked    : t.slc.parked = s.slc.parked
  wire      : t.slc.transmitter = s.slc.transmitter
  pending   : t.pending = s.pending

/-- No bay but `b` is changed. -/
def OnlyBay (b : BayId) (s t : State) : Prop := ∀ b', b' ≠ b → t.bay b' = s.bay b'

/-- A timer just started. -/
def started (ms : Nat) : Option Timer := some { length := ms, left := ms }

/-- What a bay is after a trip, a POWER_OFF or a removal has ended its power-up (R3, R18, R20). -/
structure WentDown (p : Power) (y z : Bay) : Prop where
  power    : z.power = p
  output   : z.supply.on = false
  keys     : z.powerKey = false ∧ z.volumeKey = false
  link     : z.link = .down
  early    : z.earlyReady = false
  timers   : z.rise = none ∧ z.key = none ∧ z.bootDeadline = none ∧ z.limitTrip = none
               ∧ z.brownoutTrip = none ∧ z.bootTimer = none
  flight   : z.flight.isStep = false
  queue    : ∀ q ∈ z.places, q.isStep = false
  unit     : z.mu.sampling = .idle ∧ z.mu.monitorState = .stopped ∧ z.mu.outOfBand = 0
  line     : z.line.sending = none ∧ z.line.assembly = none
  kept     : z.seating = y.seating ∧ z.variant = y.variant ∧ z.bootTime = y.bootTime
               ∧ z.mu.lowOffset = y.mu.lowOffset ∧ z.mu.highOffset = y.mu.highOffset
               ∧ z.line.stray = y.line.stray ∧ z.line.garbage = y.line.garbage

/-- The part of the state that no trip, POWER_OFF or removal touches: the Group Table, the station's
settings and the whole of the Station Link Controller. -/
structure SameStation (s t : State) : Prop where
  bayCount : t.bayCount = s.bayCount
  debounce : t.seatDebounceMs = s.seatDebounceMs
  groups   : t.groups = s.groups
  levels   : t.atu.levels = s.atu.levels ∧ t.atu.threshold = s.atu.threshold
  log      : t.atu.ring = s.atu.ring ∧ t.atu.dropped = s.atu.dropped
  slc      : t.slc = s.slc
  pending  : t.pending = s.pending

/-- The bay has no window that an earlier period boundary completed and left to be taken. -/
def NothingDue (y : Bay) : Prop :=
  y.mu.monitorAcc.due = false ∧ y.mu.exchangeAcc.due = false
    ∧ (∀ k, y.mu.calibration = some k → k.complete = false)

/-- The step in flight belongs to the exchange of a tag. -/
def inFlightOf (tag : Tag) (y : Bay) : Bool :=
  match y.flight with
  | .step st => decide (st.tag = tag)
  | .empty => false
  | .held _ => false

/-- The summary of a window that does not open (R54): NOT_OPENED with the length that the exchange of a tag
specifies, and none without a specification. -/
def neverOpened (s : State) (tag : Tag) : Option WindowSummary :=
  (s.windowOf tag).map fun w =>
    { verdict := .notOpened, reasons := Reasons.none, length := w.length, figures := none }

/-- The final of a step at a bay, with how its reply phase ended and the summary of its window
(Table 7.7). -/
def finalResult (b : BayId) (st : Step) (rp : Reply) (w : Option WindowSummary) : Result :=
  { bay := b, seating := st.seating, tag := st.tag, kind := .final, outcome := some rp.outcome,
    truncated := rp.truncated, extensions := st.extensions, interimsDropped := st.interimsDropped,
    elapsed := rp.elapsed, text := rp.text, window := w }

/-- How the reply phase of a step stands at an abnormal end: as it ended, or ended now by the cause
(Table 7.8). -/
def replyOrCause (st : Step) (cause : Outcome) : Reply :=
  match st.reply with
  | some rp => rp
  | none => { outcome := cause, text := [], truncated := false, elapsed := st.clock }

/-- The window of the step in flight at an abnormal end (R45, R116, Table 7.9): kept when DONE, ABORTED
when closed before its last period, complete when that period was taken first, NOT_OPENED otherwise. -/
def flightWindow (s : State) (b : BayId) (st : Step) : Option WindowSummary :=
  let a := (s.bay b).mu.exchangeAcc
  let aborted : WindowSummary :=
    { verdict := .aborted, reasons := Reasons.none, length := a.length, figures := some a.figures }
  match st.window with
  | .none => none
  | .done w => some w
  | .scheduled => neverOpened s st.tag
  | .notOpened => neverOpened s st.tag
  | .opened =>
    match a.state with
    | .free => neverOpened s st.tag
    | .starting => some aborted
    | .running => if a.length ≤ a.elapsed then some a.completed else some aborted

/-- The window of a queued step at an abnormal end (R116). -/
def queuedWindow (s : State) (st : Step) : Option WindowSummary :=
  match st.window with
  | .none => none
  | .done w => some w
  | .scheduled => neverOpened s st.tag
  | .notOpened => neverOpened s st.tag
  | .opened => neverOpened s st.tag

/-- The final that the end of a bay's step in flight forms (R116), if it has one. -/
def flightFinals (s : State) (b : BayId) (cause : Outcome) : List Result :=
  match (s.bay b).flight with
  | .step st => [finalResult b st (replyOrCause st cause) (flightWindow s b st)]
  | .empty => []
  | .held _ => []

/-- The finals that the end of a bay's queued steps form, oldest first (R116). -/
def queuedFinals (s : State) (b : BayId) (cause : Outcome) : List Result :=
  (s.bay b).places.filterMap fun p =>
    match p with
    | .step st => some (finalResult b st (replyOrCause st cause) (queuedWindow s st))
    | .held _ => none

/-- The finals that the end of every step of a bay forms, in their order (R116). -/
def endedFinals (s : State) (b : BayId) (cause : Outcome) : List Result :=
  flightFinals s b cause ++ queuedFinals s b cause

/-- Finals handed over one after another (R112), and for each whether it was placed. -/
def handOvers : List Result → State → State × List Bool
  | [], s => (s, [])
  | r :: rs, s =>
    ((handOvers rs (s.handOver r).1).1, (s.handOver r).2 :: (handOvers rs (s.handOver r).1).2)

/-- The places of a queue whose steps have ended: a step whose final was placed is gone, one whose final
is held leaves the held result in its place (R112, R115). -/
def placesAfter : List Place → List Bool → List Place
  | [], _ => []
  | .held t :: ps, ms => .held t :: placesAfter ps ms
  | .step _ :: ps, true :: ms => placesAfter ps ms
  | .step st :: ps, false :: ms => .held st.tag :: placesAfter ps ms
  | .step _ :: _, [] => []

/-- Every step of a bay has ended with a cause: the finals have been handed over in their order, and the
flight slot and the places hold the held ones (R112, R115, R116). -/
structure EndedSteps (cause : Outcome) (b : BayId) (s t : State) : Prop where
  table  : t.exchanges = (handOvers (endedFinals s b cause) s).1.exchanges
  buffer : t.clb = (handOvers (endedFinals s b cause) s).1.clb
  flight : (t.bay b).flight = match (s.bay b).flight with
    | .step st =>
      if (handOvers (endedFinals s b cause) s).2.head? = some true then .empty else .held st.tag
    | .empty => .empty
    | .held u => .held u
  places : (t.bay b).places = placesAfter (s.bay b).places
    ((handOvers (endedFinals s b cause) s).2.drop (flightFinals s b cause).length)

/-- The formation of a final (R112) at a bay that is ON, the rest of the bay being as given: the final is
handed over, the flight slot empties or holds it, and the link is IDLE, or HOLDING while a result of
the bay is held (R104). -/
def formedAt (s : State) (b : BayId) (y : Bay) (r : Result) : State :=
  (s.handOver r).1.setBay b { y with
    flight := if (s.handOver r).2 then .empty else .held r.tag
    windowDelay := none
    link := if (s.handOver r).2 = true ∧ y.places.any Place.isHeld = false then .idle else .holding }

/-- The commands taken one after another. -/
def run : List Instr → State → Host.Outcome State Fault Refusal
  | [], s => .next s
  | c :: cs, s =>
    match exec c s with
    | .next t => run cs t
    | .fault r => .fault r
    | .refused r => .refused r

/-- A bay line after a reset: the rates in use and the pending ones are 115200, the reset value of link_rate
(R69), transmitter IDLE, assembler EMPTY, counts 0. -/
def lineAfterReset : Line :=
  { txRate := .r115200, rxRate := .r115200, txPending := some .r115200, rxPending := some .r115200,
    sending := none, assembly := none, crEnd := false, stray := 0, garbage := 0 }

/-- Station reset, by RESET_STATION or a USB bus reset: exchanges, held results, marks, flags but SEATED,
the log ring and the non-persistent groups are gone, and only a SENDING entry stays; every powered or
TRIPPED bay is OFF, its supply off and its parameters reset, with seat state, seating number and offsets
kept; the line rates in use and pending are set from link_rate; SEATED is raised at each SEATED bay (R22,
R39, R69, R90, R124, R143, R159). -/
structure StationWasReset (s t : State) : Prop where
  exchanges : t.exchanges = []
  clb       : t.clb.hold = [] ∧ t.clb.markCount = 0 ∧ t.clb.offer = false ∧ t.clb.pressure = 3
                ∧ t.clb.holdMs = 25 ∧ (∀ e ∈ t.clb.entries, e.sending = true ∧ e.dropped = true
                  ∧ e.syncMark = false ∧ e.queryMark = false)
                ∧ t.clb.entries.length = (s.clb.entries.filter fun e => e.sending).length
  groups    : ∀ n, t.group n = if (s.group n).defined && (s.group n).persistent then s.group n
                else Group.undefined
  atu       : t.atu.levels = #v[1, 2, 2, 3, 3, 3, 1, 2, 1] ∧ t.atu.threshold = 4 ∧ t.atu.queue = []
                ∧ t.atu.ring = [] ∧ ∀ b, t.atu.dropped.get b = 0
  flags     : ∀ b c, (t.flag b c).state
                = if c = .seated ∧ (s.bay b).seat = .seated then .raised else .clear
  seated    : ∀ b, (s.bay b).seat = .seated → (t.flag b .seated).seating = (s.bay b).seating
                ∧ (t.flag b .seated).count = 0 ∧ (t.flag b .seated).queued = false
  debounce  : t.seatDebounceMs = 200
  bayCount  : t.bayCount = s.bayCount
  bays      : ∀ b, (t.bay b).seat = (s.bay b).seat ∧ (t.bay b).seating = (s.bay b).seating
                ∧ (t.bay b).debounce = (s.bay b).debounce ∧ (t.bay b).removal = (s.bay b).removal
                ∧ (t.bay b).variant = (s.bay b).variant ∧ (t.bay b).bootTime = (s.bay b).bootTime
                ∧ (t.bay b).mu.lowOffset = (s.bay b).mu.lowOffset
                ∧ (t.bay b).mu.highOffset = (s.bay b).mu.highOffset
                ∧ (t.bay b).power = (if (s.bay b).power = .none then Power.none else Power.off)
                ∧ (t.bay b).supply.on = false ∧ (t.bay b).powerKey = false
                ∧ (t.bay b).volumeKey = false ∧ (t.bay b).earlyReady = false
                ∧ (t.bay b).rise = none ∧ (t.bay b).key = none ∧ (t.bay b).bootDeadline = none
                ∧ (t.bay b).limitTrip = none ∧ (t.bay b).brownoutTrip = none
                ∧ (t.bay b).bootTimer = none ∧ (t.bay b).windowDelay = none
                ∧ (t.bay b).token = 0 ∧ (t.bay b).link = .down ∧ (t.bay b).flight = .empty
                ∧ (t.bay b).places = [] ∧ (t.bay b).params = Params.reset
                ∧ (t.bay b).line = lineAfterReset
                ∧ (t.bay b).mu.sampling = .idle ∧ (t.bay b).mu.calibration = none
                ∧ (t.bay b).mu.monitorState = .stopped ∧ (t.bay b).mu.outOfBand = 0
                ∧ (t.bay b).mu.lastSummary = none ∧ (t.bay b).mu.settleTimer = none
                ∧ (t.bay b).mu.pendingRange = none

end Sys2Proof.Claims

open Sys2Proof.Claims

/-! ## The machine -/

/-- A step takes the command at the front of the queue, and runs it with the rest left waiting (the
queue is the model's, log entry 3). With nothing waiting a millisecond passes, which is the model's
choice too (log entry 1): every running timer has a millisecond less, a boot timer counts up and holds
at 600,000, the elapsed count of a step with a running deadline goes up and holds at 960,000, and
nothing else is changed (section 0.7, R13, R76, R106, R165). -/
def Obligations.StepTakesFrontCommand : Prop :=
  (∀ (c : Instr) (rest : List Instr) (s : State),
    step { s with pending := c :: rest } = exec c { s with pending := rest })
  ∧ (∀ s : State, s.pending = [] →
    let less : Timer → Timer := fun m => { m with left := m.left - 1 }
    ∃ t, step s = .next t
      ∧ t = { s with
          bays := t.bays
          slc := { s.slc with receiver := { s.slc.receiver with
            gap := s.slc.receiver.gap.map less } } }
      ∧ ∀ b, let y := s.bay b
        t.bay b = { y with
          bootTimer := y.bootTimer.map fun n => min 600000 (n + 1)
          debounce := y.debounce.map less, removal := y.removal.map less
          rise := y.rise.map less, key := y.key.map less
          bootDeadline := y.bootDeadline.map less, limitTrip := y.limitTrip.map less
          brownoutTrip := y.brownoutTrip.map less, windowDelay := y.windowDelay.map less
          flight := match y.flight with
            | .step st =>
              match st.deadline with
              | .running m => .step { st with
                  deadline := .running (less m), clock := min 960000 (st.clock + 1) }
              | .notStarted => .step st
              | .stopped => .step st
            | .empty => .empty
            | .held u => .held u
          line := { y.line with
            assembly := y.line.assembly.map fun a => { a with timer := less a.timer } }
          mu := { y.mu with settleTimer := y.mu.settleTimer.map less } })

/-- Every command completes, in every state: it answers a next state, leaves the waiting commands as they
are, and, unless it is a power-on reset, keeps the bay count (R178). That no command stops the part is
read from the manual by inference (log entry 16), that a command whose event cannot happen changes
nothing as well (log entry 9), and the queue that is kept is the model's (log entry 3). -/
def Obligations.EveryCommandCompletes : Prop :=
  ∀ (c : Instr) (s : State), ∃ t, exec c s = .next t ∧ t.pending = s.pending
    ∧ ((∀ p q, c ≠ .powerOnReset p q) → t.bayCount = s.bayCount)

/-- A seating number changes at a completed seating of its own bay and at power-on reset, and by no other
command in any state (R2, R3, R22). -/
def Obligations.SeatingNumberChangesAtSeatingOnly : Prop :=
  ∀ (c : Instr) (s t : State) (b : BayId), exec c s = .next t →
    c ≠ .seatDebounceExpiry b → (∀ p q, c ≠ .powerOnReset p q) →
    (t.bay b).seating = (s.bay b).seating

/-! ## Invariants (each kept by every step, and met at reset) -/

/-- Seat state, power state, supply output and keys agree, and every step keeps it so (Tables 1.1, 1.2,
R5). With them every Measurement Unit samples exactly while its supply output is on, its offsets are
within the limits, its blanking count is at most 2, its down count is below 64 and 0 outside HIGH, its
out-of-band count is at most monitor_count, and its windows run only while it watches and samples; every
step keeps that too (R23, R27, R30, R37, R55, R57). -/
def Obligations.StepKeepsPowerLegal : Prop :=
  (∀ s t : State, s.PowerLegal → step s = .next t → t.PowerLegal)
  ∧ (∀ s t : State, s.UnitLegal → step s = .next t → t.UnitLegal)

/-- The link state agrees with the power state, the flight slot and the held results, and every step
keeps it so (Table 7.6, R103, R104). -/
def Obligations.StepKeepsLinkLegal : Prop :=
  ∀ s t : State, s.LinkLegal → step s = .next t → t.LinkLegal

/-- The exchange table never holds more than 32 records nor two with one tag, and a record is OPEN exactly
while a bay is pending; every step keeps it so (R99, R113). With the link states and the Collation
Buffer legal as well, every step also keeps the accounts of every exchange: a bay holds exactly one step
of an exchange while it is pending in it and no other step (R103), and each target bay of a record is in
exactly one of its pending set, a final slot of an entry, the hold queue and its reported set (R113,
R134, R137). -/
def Obligations.StepKeepsExchangesLegal : Prop :=
  (∀ s t : State, s.ExchangesLegal → step s = .next t → t.ExchangesLegal)
  ∧ (∀ s t : State, s.AccountsLegal → step s = .next t → t.AccountsLegal)

/-- At most eight entries are occupied, no two OPEN ones have one key, only the head is SENDING, results
are held only while all eight are occupied, and the mark count counts the marked; every step keeps it
so (R125, R130, R139). -/
def Obligations.StepKeepsClbLegal : Prop :=
  ∀ s t : State, s.clb.Legal → step s = .next t → t.clb.Legal

/-- The notice queue never holds two entries for one flag, and holds one exactly for each queued flag,
which is RAISED; a RAISED flag is queued exactly when its class qualifies; the queue is in order of
level, higher first, and then of raise position, earlier first; no two raised flags have one raise
position, and each has one before the next to be given. Every step keeps it so (R147, R148, R150, R152).
That raise positions are numbers is the model's choice (log entry 8). -/
def Obligations.StepKeepsNoticesLegal : Prop :=
  ∀ s t : State, s.NoticesLegal → step s = .next t → t.NoticesLegal

/-- The state after reset meets every one of these invariants. -/
def Obligations.ResetMeetsTheInvariants : Prop :=
  State.reset.PowerLegal ∧ State.reset.LinkLegal ∧ State.reset.UnitLegal ∧ State.reset.ParamsLegal
    ∧ State.reset.ExchangesLegal ∧ State.reset.clb.Legal ∧ State.reset.NoticesLegal
    ∧ State.reset.LinkBounds ∧ State.reset.AccountsLegal

/-! ## Seating, supply and boot (chapter 1) -/

/-- Sensor events at a present bay by its seat state, with the debounce length read on entry to SEATING
and a removal timer of 10 ms; an absent bay takes none (R1, R2, R3). The sensor's own pin, kept beside
the seat state, is the model's (log entry 4), and so is that an opens event while the removal timer
runs starts it again, on which R3 is silent (log entry 14). -/
def Obligations.SeatSensorEvents : Prop :=
  ∀ (b : BayId) (s : State),
    (b.val < s.bayCount →
      ((s.bay b).seat = .vacant →
        exec (.sensorCloses b) s = .next (s.setBay b { s.bay b with
            sensorClosed := true, seat := .seating, debounce := started s.seatDebounceMs })
        ∧ exec (.sensorOpens b) s = .next (s.setBay b { s.bay b with sensorClosed := false }))
      ∧ ((s.bay b).seat = .seating →
        exec (.sensorCloses b) s = .next (s.setBay b { s.bay b with sensorClosed := true })
        ∧ exec (.sensorOpens b) s = .next (s.setBay b { s.bay b with
            sensorClosed := false, seat := .vacant, debounce := none }))
      ∧ ((s.bay b).seat = .seated →
        exec (.sensorCloses b) s = .next (s.setBay b { s.bay b with
            sensorClosed := true, removal := none })
        ∧ exec (.sensorOpens b) s = .next (s.setBay b { s.bay b with
            sensorClosed := false, removal := started 10 })))
    ∧ (s.bayCount ≤ b.val →
      exec (.sensorCloses b) s = .next s ∧ exec (.sensorOpens b) s = .next s)

/-- The debounce expiry of a SEATING bay completes its seating: the number goes up by one and wraps, the
bay is SEATED and OFF with token 00 and link DOWN, and SEATED is raised with the new number (R2). -/
def Obligations.DebounceExpirySeats : Prop :=
  ∀ (b : BayId) (s : State), (s.bay b).seat = .seating → (s.bay b).debounce.isSome = true →
    ∃ t, exec (.seatDebounceExpiry b) s = .next t
      ∧ t.bay b = { s.bay b with
          debounce := none, seating := (s.bay b).seating + 1, seat := .seated, power := .off,
          token := 0, link := .down }
      ∧ OnlyBay b s t ∧ SameStation s t ∧ t.exchanges = s.exchanges ∧ t.clb = s.clb
      ∧ (t.flag b .seated).state ≠ .clear
      ∧ (t.flag b .seated).seating = (s.bay b).seating + 1
      ∧ (∀ b' c, (b', c) ≠ (b, AttClass.seated) → t.flag b' c = s.flag b' c)

/-- The removal timer's expiry removes the phone: the bay is VACANT and NONE, a powered bay is switched
off, every step ends with a final REMOVED (one whose reply phase is over keeps its outcome), and UNSEATED
is raised with the number of the seating just ended and its live mark; the seating number stays (R3,
R114, R116, R119). That a window made due by an earlier boundary is complete is log entry 10. -/
def Obligations.RemovalEndsTheSeating : Prop :=
  ∀ (b : BayId) (s : State), (s.bay b).seat = .seated → (s.bay b).removal.isSome = true →
    ∃ t, exec (.removalTimerExpiry b) s = .next t
      ∧ (t.bay b).seat = .vacant ∧ (t.bay b).power = .none ∧ (t.bay b).link = .down
      ∧ (t.bay b).removal = none ∧ (t.bay b).seating = (s.bay b).seating
      ∧ ((s.bay b).power.outputOn = true → WentDown .none (s.bay b) (t.bay b))
      ∧ ((s.bay b).power.outputOn = false → (t.bay b).mu.sampling = (s.bay b).mu.sampling
          ∧ (t.bay b).mu.calibration = (s.bay b).mu.calibration)
      ∧ (∀ q ∈ (t.bay b).places, q.isStep = false) ∧ (t.bay b).flight.isStep = false
      ∧ EndedSteps .removed b s t
      ∧ OnlyBay b s t ∧ SameStation s t
      ∧ (t.flag b .unseated).state ≠ .clear
      ∧ (t.flag b .unseated).seating = (s.bay b).seating
      ∧ (t.flag b .unseated).data = .live (s.bay b).power.outputOn
      ∧ (∀ b' c, (b', c) ≠ (b, AttClass.unseated) → (b', c) ≠ (b, AttClass.band) →
          t.flag b' c = s.flag b' c)

/-- Each trip timer's expiry in its states trips the bay: TRIPPED with the supply off, every step ended
with a final POWER_LOST (one whose reply phase is over keeps its outcome), every power timer stopped and
TRIP raised with the cause of the expiry taken (R10, R17, R18, R114, R116, R118). That the removal timer
is kept is read by inference from Table 1.3 (log entry 12); that a window made due by an earlier
boundary is complete, and may raise BAND, is log entry 10. -/
def Obligations.TripTimersTrip : Prop :=
  ∀ (b : BayId) (s : State) (c : Instr) (cause : TripCause),
    ((c = .riseTimerExpiry b ∧ cause = .riseFail ∧ (s.bay b).power = .powering
        ∧ (s.bay b).rise.isSome = true)
      ∨ (c = .limitTripTimerExpiry b ∧ cause = .limit ∧ (s.bay b).power.outputOn = true
        ∧ (s.bay b).limitTrip.isSome = true)
      ∨ (c = .brownoutTripTimerExpiry b ∧ cause = .brownout ∧ (s.bay b).power.outputOn = true
        ∧ (s.bay b).brownoutTrip.isSome = true)) →
    ∃ t, exec c s = .next t
      ∧ WentDown .tripped (s.bay b) (t.bay b)
      ∧ EndedSteps .powerLost b s t
      ∧ (t.bay b).seat = (s.bay b).seat ∧ (t.bay b).removal = (s.bay b).removal
      ∧ OnlyBay b s t ∧ SameStation s t
      ∧ (t.flag b .trip).state ≠ .clear
      ∧ (t.flag b .trip).seating = (s.bay b).seating
      ∧ (t.flag b .trip).data = .cause cause
      ∧ (∀ b' k, (b', k) ≠ (b, AttClass.trip) → (b', k) ≠ (b, AttClass.band) →
          t.flag b' k = s.flag b' k)

/-- The supply reports with the output on: output good in POWERING, taken once, stops the rise timer and
presses the keys of the variant for key_ms; limit and brownout reports run their trip timers, which an
earlier engagement leaves running; before output good a brownout report starts no timer (R7, R9,
Table 1.4). With the output off no report is acted upon. -/
def Obligations.SupplyReportsRunTheTimers : Prop :=
  ∀ (b : BayId) (s : State),
    ((s.bay b).power = .powering → (s.bay b).outputGood = false →
      exec (.outputGood b) s = .next (s.setBay b { s.bay b with
        outputGood := true, rise := none, powerKey := true,
        volumeKey := decide ((s.bay b).variant = .recovery),
        key := started (s.bay b).params.keyMs,
        brownoutTrip := if (s.bay b).lastBelow then started 2 else (s.bay b).brownoutTrip }))
    ∧ ((s.bay b).power.outputOn = true →
      exec (.limitEngaged b) s = .next (s.setBay b { s.bay b with
        supply := { (s.bay b).supply with limitEngaged := true },
        limitTrip := if (s.bay b).limitTrip.isSome then (s.bay b).limitTrip
          else started (s.bay b).params.tripMs })
      ∧ exec (.limitReleased b) s = .next (s.setBay b { s.bay b with
        supply := { (s.bay b).supply with limitEngaged := false }, limitTrip := none })
      ∧ exec (.aboveBrownout b) s = .next (s.setBay b { s.bay b with
        supply := { (s.bay b).supply with belowBrownout := false }, lastBelow := false,
        brownoutTrip := none })
      ∧ exec (.belowBrownout b) s = .next (s.setBay b { s.bay b with
        supply := { (s.bay b).supply with belowBrownout := true }, lastBelow := true,
        brownoutTrip :=
          if (s.bay b).power = .powering ∧ (s.bay b).outputGood = false then (s.bay b).brownoutTrip
          else if (s.bay b).brownoutTrip.isSome then (s.bay b).brownoutTrip else started 2 }))
    ∧ ((s.bay b).power.outputOn = false →
      exec (.outputGood b) s = .next s ∧ exec (.limitEngaged b) s = .next s
      ∧ exec (.limitReleased b) s = .next s ∧ exec (.belowBrownout b) s = .next s
      ∧ exec (.aboveBrownout b) s = .next s)

/-- The key timer's expiry in POWERING releases the keys: with the early-ready mark clear the bay enters
BOOTING, the boot timer at 0 and the deadline running for boot_deadline_ms; with it set the bay enters
ON with boot time 0, token 00, and READY raised with 0. The boot deadline's expiry in BOOTING raises
BOOT_TIMEOUT with the length the timer was started with; the bay stays BOOTING, its boot timer counts
on, and the deadline is not restarted. A ready line in POWERING sets the early-ready mark and does
nothing else; in BOOTING it completes the boot: the bay is ON with the boot timer's value as its boot
time and token 00, the deadline is stopped, and READY is raised with that time (R11 to R14, R81). -/
def Obligations.KeyReleaseAndBootDeadline : Prop :=
  (∀ (b : BayId) (s : State), (s.bay b).power = .powering → (s.bay b).key.isSome = true →
      ((s.bay b).earlyReady = false →
        exec (.keyTimerExpiry b) s = .next (s.setBay b { s.bay b with
          power := .booting, powerKey := false, volumeKey := false, key := none, bootTimer := some 0,
          bootDeadline := started (s.bay b).params.bootDeadlineMs }))
      ∧ ((s.bay b).earlyReady = true → (s.bay b).flight.isStep = false →
        ∃ t, exec (.keyTimerExpiry b) s = .next t
          ∧ t.bay b = { s.bay b with
              power := .on, powerKey := false, volumeKey := false, key := none, earlyReady := false,
              bootTime := 0, bootTimer := none, bootDeadline := none, token := 0,
              link := if (s.bay b).holdsResult then .holding else .idle }
          ∧ OnlyBay b s t ∧ SameStation s t ∧ t.exchanges = s.exchanges ∧ t.clb = s.clb
          ∧ (t.flag b .ready).state ≠ .clear ∧ (t.flag b .ready).data = .bootTime 0
          ∧ (∀ b' c, (b', c) ≠ (b, AttClass.ready) → t.flag b' c = s.flag b' c)))
  ∧ (∀ (b : BayId) (s : State) (m : Timer), (s.bay b).power = .booting →
      (s.bay b).bootDeadline = some m →
      ∃ t, exec (.bootDeadlineExpiry b) s = .next t
        ∧ t.bay b = { s.bay b with bootDeadline := none }
        ∧ OnlyBay b s t ∧ SameStation s t ∧ t.exchanges = s.exchanges ∧ t.clb = s.clb
        ∧ (t.flag b .bootTimeout).state ≠ .clear
        ∧ (t.flag b .bootTimeout).seating = (s.bay b).seating
        ∧ (t.flag b .bootTimeout).data = .deadline m.length
        ∧ (∀ b' c, (b', c) ≠ (b, AttClass.bootTimeout) → t.flag b' c = s.flag b' c))
  ∧ (∀ (b : BayId) (s : State) (text : List Byte) (cut : Bool), isReady text = true →
      let t := s.route b (.event text cut)
      ((s.bay b).power = .powering → t = s.setBay b { s.bay b with earlyReady := true })
      ∧ (∀ n, (s.bay b).power = .booting → (s.bay b).bootTimer = some n →
          (s.bay b).flight.isStep = false →
          t.bay b = { s.bay b with
              power := .on, earlyReady := false, bootTime := n, bootTimer := none,
              bootDeadline := none, token := 0,
              link := if (s.bay b).holdsResult then .holding else .idle }
          ∧ OnlyBay b s t ∧ SameStation s t ∧ t.exchanges = s.exchanges ∧ t.clb = s.clb
          ∧ (t.flag b .ready).state ≠ .clear ∧ (t.flag b .ready).seating = (s.bay b).seating
          ∧ (t.flag b .ready).data = .bootTime n
          ∧ (∀ b' c, (b', c) ≠ (b, AttClass.ready) → t.flag b' c = s.flag b' c)))

/-- POWER_ON taken: with a resolved target, each bay is refused STALE, NOT_SEATED, ALREADY_ON, TRIPPED or
BUSY by the first check that applies, and every bay not refused enters POWERING with the request's
variant, its supply enabled at its parameters, the rise timer at 50 ms and its unit sampling; the settle
interval starts with settle_ms, or with 0 none runs, and with monitor_on on the unit is WATCHING, with
out-of-band count 0 and a fresh window of monitor_window periods to open; the answer carries the
decisions (R8, R9, R23, R55, R64, Table 1.5). -/
def Obligations.PowerOnPowersTheAccepted : Prop :=
  ∀ (tag : Tag) (p : List Byte) (s : State) (r : PowerOnRequest) (S : BaySet),
    Arrives s p → tag ≠ 0 → readPowerOn p = some r → r.meaningful = true →
    s.resolve r.target = .ok S →
    let judge : BayId → Option Reason := fun b =>
      if s.stale r.target.pins b then some .stale
      else if (s.bay b).seat ≠ .seated then some .notSeated
      else if (s.bay b).power.outputOn then some .alreadyOn
      else if (s.bay b).power = .tripped then some .tripped
      else if (s.bay b).mu.sampling = .calibrating then some .busy
      else none
    ∃ t, exec (.powerOn tag p) s = .next t
      ∧ Answered s t { tag := tag, kind := 0x06, status := (verdictsOf S judge).status,
                       content := .verdicts (verdictsOf S judge) }
      ∧ SameElsewhere s t ∧ t.atu = s.atu
      ∧ ∀ b, (inSet S b = true → judge b = none →
            (t.bay b).power = .powering
            ∧ (t.bay b).variant = (if r.variant = 1 then Variant.recovery else Variant.plain)
            ∧ (t.bay b).supply = {
                on := true, setMv := (s.bay b).params.supplyMv,
                limitMa := (s.bay b).params.limitMa, brownoutMv := (s.bay b).params.brownoutMv,
                limitEngaged := false, belowBrownout := true }
            ∧ (t.bay b).rise = started 50 ∧ (t.bay b).bootTime = 0
            ∧ (t.bay b).earlyReady = false ∧ (t.bay b).lastBelow = true
            ∧ (t.bay b).powerKey = (s.bay b).powerKey
            ∧ (t.bay b).mu.sampling = .sampling ∧ (t.bay b).mu.blanking = 2
            ∧ (t.bay b).mu.range = (s.bay b).params.rangeMode.startRange
            ∧ (t.bay b).mu.settleTimer = (if (s.bay b).params.settleMs = 0 then none
                else started (s.bay b).params.settleMs)
            ∧ ((t.bay b).mu.periodSettle = true ↔ (s.bay b).params.settleMs ≠ 0)
            ∧ ((s.bay b).params.monitorOn = true → (t.bay b).mu.monitorState = .watching
                ∧ (t.bay b).mu.outOfBand = 0
                ∧ (t.bay b).mu.monitorAcc = { Accumulator.cleared with
                    state := .starting, length := (s.bay b).params.monitorWindow })
            ∧ ((s.bay b).params.monitorOn = false →
                (t.bay b).mu.monitorState = (s.bay b).mu.monitorState
                ∧ (t.bay b).mu.monitorAcc = (s.bay b).mu.monitorAcc)
            ∧ (t.bay b).seating = (s.bay b).seating ∧ (t.bay b).params = (s.bay b).params)
          ∧ (inSet S b = false ∨ judge b ≠ none → t.bay b = s.bay b)

/-- POWER_OFF taken: seated bays whose pin is current are accepted; a powered one goes down to OFF with
its steps ended by finals POWER_LOST (one whose reply phase is over keeps its outcome), a TRIPPED one
enters OFF with nothing else done, an OFF one is not changed (R19, R20, R114, R116, R118, Table 1.7). No
flag is touched but BAND at a bay switched off whose monitor window an earlier boundary had made due
(log entry 10). That the removal timer is kept is read by inference from Table 1.3 (log entry 12), and
the ascending order of the bays is the model's choice (log entry 25). -/
def Obligations.PowerOffPutsTheAcceptedOff : Prop :=
  ∀ (tag : Tag) (p : List Byte) (s : State) (g : Target) (S : BaySet),
    Arrives s p → tag ≠ 0 → readTargetOnly p = some g → g.meaningful = true →
    s.resolve g = .ok S →
    let judge : BayId → Option Reason := fun b =>
      if s.stale g.pins b then some .stale
      else if (s.bay b).seat ≠ .seated then some .notSeated
      else none
    let finals : List Result := allBays.flatMap fun b =>
      if inSet S b && (judge b).isNone && (s.bay b).power.outputOn then endedFinals s b .powerLost
      else []
    ∃ t, exec (.powerOff tag p) s = .next t
      ∧ Answered s t { tag := tag, kind := 0x07, status := (verdictsOf S judge).status,
                       content := .verdicts (verdictsOf S judge) }
      ∧ t.groups = s.groups ∧ t.slc.parked = s.slc.parked
      ∧ (∀ b c, c ≠ AttClass.band → t.flag b c = s.flag b c)
      ∧ (∀ b, ¬(inSet S b = true ∧ judge b = none ∧ (s.bay b).power.outputOn = true
            ∧ (s.bay b).mu.monitorAcc.due = true) →
          t.flag b .band = s.flag b .band)
      ∧ t.exchanges = (handOvers finals s).1.exchanges ∧ t.clb = (handOvers finals s).1.clb
      ∧ ∀ b, (inSet S b = true → judge b = none → (s.bay b).power.outputOn = true →
            WentDown .off (s.bay b) (t.bay b) ∧ (t.bay b).seat = (s.bay b).seat
            ∧ (t.bay b).removal = (s.bay b).removal)
          ∧ (inSet S b = true → judge b = none → (s.bay b).power = .tripped →
            t.bay b = { s.bay b with power := .off })
          ∧ (inSet S b = false ∨ judge b ≠ none ∨ (s.bay b).power = .off → t.bay b = s.bay b)

/-- ZERO taken: a bay is refused STALE, BUSY while it calibrates, or POWERED while its output is on, and
otherwise begins calibrating with a record whose sums are 0; a bay need not be seated (R34, R35,
Table 2.5). -/
def Obligations.ZeroStartsTheAccepted : Prop :=
  ∀ (tag : Tag) (p : List Byte) (s : State) (g : Target) (S : BaySet),
    Arrives s p → tag ≠ 0 → readTargetOnly p = some g → g.meaningful = true →
    s.resolve g = .ok S →
    let judge : BayId → Option Reason := fun b =>
      if s.stale g.pins b then some .stale
      else if (s.bay b).mu.sampling = .calibrating then some .busy
      else if (s.bay b).power.outputOn then some .powered
      else none
    exec (.zero tag p) s = .next (((atTaking s).mapBays fun b y =>
        if inSet S b && (judge b).isNone then
          { y with mu := { y.mu with
              sampling := .calibrating, wholePeriod := false,
              calibration := some { phase := .lowBlank, count := 0, lowSum := 0, highSum := 0 } } }
        else y).answer 0x08 tag (verdictsOf S judge).status (.verdicts (verdictsOf S judge)))

/-! ## The sense path (chapter 2) -/

/-- A candidate offset is the sum divided by 256 rounded to nearest, halves away from zero: the magnitude
plus 128, divided by 256 and rounded down, with the sum's sign; the sums of 256 codes give candidates
of −32768 to 32767; and the end of a calibration whose 516 periods are taken forms one for each range
from that range's sum (R36). -/
def Obligations.CandidateRoundsHalvesAway : Prop :=
  (∀ sum : Int,
    (0 ≤ sum → candidateOf sum = (sum + 128) / 256)
    ∧ (sum < 0 → candidateOf sum = -((-sum + 128) / 256))
    ∧ (-8388608 ≤ sum → sum ≤ 8388352 → -32768 ≤ candidateOf sum ∧ candidateOf sum ≤ 32767))
  ∧ (∀ (b : BayId) (s : State) (k : Calibration),
    (s.bay b).mu.sampling = .calibrating → (s.bay b).mu.calibration = some k → k.complete = true →
    ∃ t fault, exec (.calibrationEnd b) s = .next t
      ∧ (t.flag b .calibrated).data
          = .calibration fault (candidateOf k.lowSum) (candidateOf k.highSum))

/-- The end of a calibration: both candidates within −512 to 512 replace both offsets, either outside
replaces neither; the record is discarded, the unit is idle, and CALIBRATED is raised with the result
and the two candidates (R37). This is CALIBRATION_END as a command of its own; that the boundary ending
period 516 does the same at once, as CalibrationRunSumsItsPeriods says, is log entry 10. -/
def Obligations.CalibrationEndStoresOrFaults : Prop :=
  ∀ (b : BayId) (s : State) (k : Calibration),
    (s.bay b).mu.sampling = .calibrating → (s.bay b).mu.calibration = some k → k.complete = true →
    let lo := candidateOf k.lowSum
    let hi := candidateOf k.highSum
    let ok : Prop := -512 ≤ lo ∧ lo ≤ 512 ∧ -512 ≤ hi ∧ hi ≤ 512
    ∃ t, exec (.calibrationEnd b) s = .next t
      ∧ (ok → t.bay b = { s.bay b with mu := { (s.bay b).mu with
            sampling := .idle, calibration := none, wholePeriod := false,
            lowOffset := lo, highOffset := hi } })
      ∧ (¬ok → t.bay b = { s.bay b with mu := { (s.bay b).mu with
            sampling := .idle, calibration := none, wholePeriod := false } })
      ∧ OnlyBay b s t ∧ SameStation s t ∧ t.exchanges = s.exchanges ∧ t.clb = s.clb
      ∧ (t.flag b .calibrated).state ≠ .clear
      ∧ (t.flag b .calibrated).seating = (s.bay b).seating
      ∧ ∃ fault : Bool, (fault = true ↔ ¬ok)
        ∧ (t.flag b .calibrated).data = .calibration fault lo hi
      ∧ (∀ b' c, (b', c) ≠ (b, AttClass.calibrated) → t.flag b' c = s.flag b' c)

/-- A calibration takes 516 periods from the first boundary after the ZERO: two LOW codes discarded, 256
summed, two HIGH codes discarded, 256 summed; until the last of them it goes on with nothing else
changed, and the boundary that ends period 516 completes it: offsets stored or kept, the record
discarded, the unit idle and CALIBRATED raised (R35 to R37, Table 2.6). `first` is the code of the
period in progress at the taking, which is not one of the 516. That the unit's range in use is as
before is read by inference (log entry 13). -/
def Obligations.CalibrationRunSumsItsPeriods : Prop :=
  ∀ (b : BayId) (s : State) (first : RawCode) (l0 l1 h0 h1 last : RawCode)
    (lows highs : List RawCode),
    (s.bay b).mu.sampling = .calibrating → (s.bay b).mu.wholePeriod = false →
    (s.bay b).mu.calibration = some { phase := .lowBlank, count := 0, lowSum := 0, highSum := 0 } →
    (s.bay b).mu.monitorAcc.due = false → (s.bay b).mu.exchangeAcc.due = false →
    lows.length = 256 → highs.length = 255 →
    let codes := first :: [l0, l1] ++ lows ++ [h0, h1] ++ highs
    let lo := candidateOf (lows.map BitVec.toInt).sum
    let hi := candidateOf ((highs ++ [last]).map BitVec.toInt).sum
    let ok : Prop := -512 ≤ lo ∧ lo ≤ 512 ∧ -512 ≤ hi ∧ hi ≤ 512
    (∃ t k, run (codes.map (Instr.periodBoundary b)) s = .next t
      ∧ t = s.setBay b { s.bay b with mu := { (s.bay b).mu with
          wholePeriod := true, calibration := some k } }
      ∧ k.complete = false ∧ k.lowSum = (lows.map BitVec.toInt).sum
      ∧ k.highSum = (highs.map BitVec.toInt).sum)
    ∧ ∃ t, run ((codes ++ [last]).map (Instr.periodBoundary b)) s = .next t
      ∧ (ok → t.bay b = { s.bay b with mu := { (s.bay b).mu with
            sampling := .idle, calibration := none, wholePeriod := false,
            lowOffset := lo, highOffset := hi } })
      ∧ (¬ok → t.bay b = { s.bay b with mu := { (s.bay b).mu with
            sampling := .idle, calibration := none, wholePeriod := false } })
      ∧ OnlyBay b s t ∧ SameStation s t ∧ t.exchanges = s.exchanges ∧ t.clb = s.clb
      ∧ (t.flag b .calibrated).state ≠ .clear
      ∧ (t.flag b .calibrated).seating = (s.bay b).seating
      ∧ (∃ fault : Bool, (fault = true ↔ ¬ok)
        ∧ (t.flag b .calibrated).data = .calibration fault lo hi)
      ∧ (∀ b' c, (b', c) ≠ (b, AttClass.calibrated) → t.flag b' c = s.flag b' c)

/-- A boundary that ends a whole period of sampling: both windows take the item of that period, the blank
or the sample with its current, clipped mark and settle state; then the range is decided. In AUTO a LOW
sample of an adjusted code of 30,000 or more switches to HIGH, and the 64th HIGH sample running of 48 or
less to LOW; a blanked period decides nothing and sets the down count to 0; in a fixed mode nothing
switches. A pending range_mode is then applied by Table 2.3 and becomes the mode. A switch sets blanking
to 2, one of which the next period takes, and is counted by a window that goes on across the boundary; a
STARTING window runs from the next period. At the first boundary after sampling started the windows take
nothing and STARTING ones run (R23, R25 to R32, R40 to R43, R65). That the first period of sampling is
clear where its settle timer has stopped before that boundary is the model's choice (log entry 28). -/
def Obligations.BoundaryDecidesTheRange : Prop :=
  (∀ (b : BayId) (c : RawCode) (s : State),
    (s.bay b).mu.sampling = .sampling → NothingDue (s.bay b) → (s.bay b).mu.wholePeriod = true →
    let m := (s.bay b).mu
    let mode := (s.bay b).params.rangeMode
    let a : Int := max (-32768) (min 32767
      (c.toInt - (if m.range = .low then m.lowOffset else m.highOffset)))
    let sample : Prop := m.periodBlanked = false
    let up : Prop := mode = .auto ∧ sample ∧ m.range = .low ∧ 30000 ≤ a
    let count : Nat :=
      if mode = .auto ∧ sample ∧ m.range = .high ∧ a ≤ 48 then m.downCount + 1 else 0
    let down : Prop := mode = .auto ∧ m.range = .high ∧ 64 ≤ count
    let decided : Range := if up then .high else if down then .low else m.range
    let next : Range := match m.pendingRange with
      | some .low => .low
      | some .high => .high
      | some .auto => decided
      | none => decided
    let kept : Nat := match m.pendingRange with
      | some .low => 0
      | some .high => 0
      | some .auto => count
      | none => count
    let item : PeriodItem := {
      settle := m.periodSettle
      sample := if m.periodBlanked then none else some {
        current := if m.range = .low then a else 500 * a, range := m.range,
        clipped := decide (c.toInt = 32767) || decide (c.toInt = -32768) } }
    let across : Accumulator → Accumulator := fun w =>
      let w := w.take item
      let w := if next ≠ m.range ∧ w.state = .running ∧ 1 ≤ w.elapsed ∧ w.elapsed < w.length then
        { w with switches := min 255 (w.switches + 1) } else w
      if w.state = .starting then { w with state := .running } else w
    ∃ t, exec (.periodBoundary b c) s = .next t
      ∧ (t.bay b).mu.range = next
      ∧ (next ≠ m.range → (t.bay b).mu.blanking = 1 ∧ (t.bay b).mu.downCount = 0
          ∧ (t.bay b).mu.periodBlanked = true)
      ∧ (next = m.range → (t.bay b).mu.blanking = m.blanking - 1 ∧ (t.bay b).mu.downCount = kept
          ∧ ((t.bay b).mu.periodBlanked = true ↔ 0 < m.blanking))
      ∧ (t.bay b).mu.monitorAcc = across m.monitorAcc
      ∧ (t.bay b).mu.exchangeAcc = across m.exchangeAcc
      ∧ (t.bay b).params = { (s.bay b).params with rangeMode := m.pendingRange.getD mode }
      ∧ (t.bay b).mu.pendingRange = none ∧ (t.bay b).mu.sampling = .sampling
      ∧ (t.bay b).mu.lowOffset = m.lowOffset ∧ (t.bay b).mu.highOffset = m.highOffset
      ∧ (t.bay b).mu.settleTimer = m.settleTimer ∧ (t.bay b).mu.wholePeriod = true
      ∧ ((t.bay b).mu.periodSettle = true ↔ m.settleTimer.isSome = true)
      ∧ (t.bay b).mu.outOfBand = m.outOfBand ∧ (t.bay b).mu.lastSummary = m.lastSummary
      ∧ (t.bay b).flight = (s.bay b).flight
      ∧ OnlyBay b s t ∧ SameStation s t ∧ t.exchanges = s.exchanges ∧ t.clb = s.clb
      ∧ t.atu = s.atu)
  ∧ (∀ (b : BayId) (c : RawCode) (s : State),
    (s.bay b).mu.sampling = .sampling → NothingDue (s.bay b) → (s.bay b).mu.wholePeriod = false →
    (s.bay b).mu.pendingRange = none →
    let m := (s.bay b).mu
    let begun : Accumulator → Accumulator := fun w =>
      if w.state = .starting then { w with state := .running } else w
    exec (.periodBoundary b c) s = .next (s.setBay b { s.bay b with mu := { m with
      wholePeriod := true, downCount := 0, periodBlanked := decide (0 < m.blanking)
      blanking := m.blanking - 1, periodSettle := m.settleTimer.isSome
      monitorAcc := begun m.monitorAcc, exchangeAcc := begun m.exchangeAcc } }))

/-! ## Window arithmetic (chapter 3) -/

/-- The mean is S1 over n rounded to nearest, a tie away from zero, formed from the doubled magnitude; and
it lies between two bounds that the samples lie between. The rms of a quotient below 2^64 is the
largest whole number whose square does not exceed it. The figures of a window at its end are its counts,
that mean of S1 and n, that root of S2 divided by n and rounded down, and its least and greatest sample;
an EMPTY one reports 0 for all four (R48 to R50). -/
def Obligations.MeanAndRmsAreExact : Prop :=
  (∀ (s1 : Int) (n : Nat), 0 < n →
      (0 ≤ s1 → meanOf s1 n = (2 * s1 + n) / (2 * n))
      ∧ (s1 < 0 → meanOf s1 n = -((2 * -s1 + n) / (2 * n)))
      ∧ (∀ lo hi : Int, lo * n ≤ s1 → s1 ≤ hi * n → lo ≤ meanOf s1 n ∧ meanOf s1 n ≤ hi))
  ∧ (∀ q : Nat, q < 2 ^ 64 →
      rootOf q * rootOf q ≤ q ∧ ∀ r : Nat, r * r ≤ q → r ≤ rootOf q)
  ∧ (∀ a : Accumulator,
      a.figures.elapsed = a.elapsed ∧ a.figures.n = a.n ∧ a.figures.blanked = a.blanked
      ∧ a.figures.clipped = a.clipped ∧ a.figures.switches = a.switches
      ∧ a.figures.settling = a.settling
      ∧ (a.n = 0 → a.figures.empty = true ∧ a.figures.mean = 0 ∧ a.figures.rms = 0
          ∧ a.figures.min = 0 ∧ a.figures.max = 0)
      ∧ (a.n ≠ 0 → a.figures.empty = false ∧ a.figures.mean = meanOf a.s1 a.n
          ∧ a.figures.rms = rootOf (a.s2 / a.n)
          ∧ (∀ x, a.min = some x → a.figures.min = x)
          ∧ (∀ x, a.max = some x → a.figures.max = x)))

/-- A window opened and begun that takes at most its L items holds their true counts and sums: elapsed is
n plus blanked, S1 the sum of the currents, S2 of their squares, min and max the least and greatest
(R40, R41, R47). BoundaryDecidesTheRange says which item a boundary hands to it, and MeanAndRmsAreExact
what its figures are. -/
def Obligations.WindowSumsAreExact : Prop :=
  ∀ (L : Nat) (spec : Option WindowSpec) (items : List PeriodItem), items.length ≤ L →
    let xs : List Sample := items.filterMap fun it => it.sample
    let is : List Int := xs.map fun x => x.current
    let a := items.foldl Accumulator.take (Accumulator.opening L spec).begin
    a.length = L ∧ a.spec = spec ∧ a.elapsed = items.length ∧ a.n = xs.length
    ∧ a.n + a.blanked = a.elapsed
    ∧ a.s1 = is.sum ∧ a.s2 = (is.map fun i => (i * i).toNat).sum
    ∧ a.clipped = (xs.filter fun x => x.clipped).length
    ∧ a.switches = 0
    ∧ (a.settling = true ↔ ∃ it ∈ items, it.settle = true)
    ∧ (is = [] → a.min = none ∧ a.max = none)
    ∧ (∀ m, a.min = some m ↔ m ∈ is ∧ ∀ i ∈ is, m ≤ i)
    ∧ (∀ m, a.max = some m ↔ m ∈ is ∧ ∀ i ∈ is, i ≤ m)

/-- A completed exchange window: EMPTY fails with reason EMPTY alone; otherwise each test of Table 3.4
adds its reason, equality passing, and the verdict is PASS exactly when no reason stands; at completion
that summary goes to the step whose window it is (R53). -/
def Obligations.VerdictFollowsTheTests : Prop :=
  (∀ (a : Accumulator) (w : WindowSpec), a.spec = some w →
    let v := a.completed
    let f := a.figures
    v.length = a.length ∧ v.figures = some f
    ∧ (a.n = 0 → v.verdict = .fail ∧ v.reasons = { Reasons.none with empty := true })
    ∧ (a.n ≠ 0 →
        v.reasons.empty = false
        ∧ (v.reasons.low = true ↔ f.mean < w.lo) ∧ (v.reasons.high = true ↔ w.hi < f.mean)
        ∧ (v.reasons.peak = true ↔ ∃ c, w.peakCeiling = some c ∧ c < f.max)
        ∧ (v.reasons.rms = true ↔ ∃ c, w.rmsCeiling = some c ∧ c < f.rms))
    ∧ (v.verdict = .pass ↔ v.reasons = Reasons.none)
    ∧ (v.verdict = .pass ∨ v.verdict = .fail))
  ∧ (∀ (b : BayId) (s : State) (st : Step), (s.bay b).mu.exchangeAcc.due = true →
    (s.bay b).flight = .step st → st.window = .opened → st.reply = none →
    ∃ t, exec (.windowCompletion b .exchange) s = .next t
      ∧ (t.bay b).flight
          = .step { st with window := .done (s.bay b).mu.exchangeAcc.completed })

/-! ## Monitoring and settle intervals (chapter 4) -/

/-- A completed monitor window: its outcome by the first row of Table 4.2, the count one up and at most
monitor_count after LOW or HIGH, 0 after INBAND and otherwise unchanged, the last summary replaced, the
next window running, and BAND raised exactly when the count comes to monitor_count from below (R44,
R55 to R59). -/
def Obligations.MonitorWindowCompletes : Prop :=
  ∀ (b : BayId) (s : State), (s.bay b).mu.monitorAcc.due = true →
    let m := (s.bay b).mu
    let p := (s.bay b).params
    let f := m.monitorAcc.figures
    let outcome : Verdict :=
      if f.settling = true then .suppressed else if f.n = 0 then .empty
      else if f.mean < p.monitorLo then .low else if p.monitorHi < f.mean then .high else .inband
    let count : Nat :=
      if outcome = .low ∨ outcome = .high then min (m.outOfBand + 1) p.monitorCount
      else if outcome = .inband then 0 else m.outOfBand
    ∃ t, exec (.windowCompletion b .monitor) s = .next t
      ∧ (t.bay b) = { s.bay b with mu := { m with
          outOfBand := count,
          lastSummary := some { verdict := outcome, reasons := Reasons.none,
                                length := m.monitorAcc.length, figures := some f },
          monitorAcc := { Accumulator.cleared with
            state := .running, length := m.monitorAcc.length } } }
      ∧ OnlyBay b s t ∧ SameStation s t ∧ t.exchanges = s.exchanges ∧ t.clb = s.clb
      ∧ (∀ b' c, (b', c) ≠ (b, AttClass.band) → t.flag b' c = s.flag b' c)
      ∧ (m.outOfBand < p.monitorCount → count = p.monitorCount →
          (t.flag b .band).state ≠ .clear ∧ (t.flag b .band).seating = (s.bay b).seating
          ∧ (t.flag b .band).data = .band (decide (outcome = .high)) f.mean)
      ∧ (¬(m.outOfBand < p.monitorCount ∧ count = p.monitorCount) → t.atu = s.atu)

/-- The window delay's expiry sends the open request: a sampling unit opens the exchange window with the
exchange's length and specification, every count afresh; for a unit that does not sample the window is
NOT_OPENED, and a step in AWAITING goes on while one in MEASURING forms its final with that summary. A
completed exchange window hands its summary to its step: in AWAITING the step keeps it and waits on; in
MEASURING the final is formed with the outcome, text and elapsed count of its reply phase and that
summary, and handed over (R40, R44, R107, R112, R114). That a completion taken with no window due does
nothing is read by inference (log entry 9). -/
def Obligations.ExchangeWindowOpensAndCompletes : Prop :=
  (∀ (b : BayId) (s : State) (st : Step) (w : WindowSpec),
      (s.bay b).windowDelay.isSome = true → (s.bay b).flight = .step st →
      s.windowOf st.tag = some w →
      ((s.bay b).mu.sampling = .sampling →
        exec (.windowDelayExpiry b) s = .next (s.setBay b { s.bay b with
          windowDelay := none, flight := .step { st with window := .opened },
          mu := { (s.bay b).mu with exchangeAcc := { Accumulator.cleared with
            state := .starting, length := w.length, spec := some w } } }))
      ∧ ((s.bay b).mu.sampling ≠ .sampling → st.reply = none →
        exec (.windowDelayExpiry b) s = .next (s.setBay b { s.bay b with
          windowDelay := none, flight := .step { st with window := .notOpened } }))
      ∧ (∀ rp, (s.bay b).mu.sampling ≠ .sampling → st.reply = some rp → (s.bay b).power = .on →
        exec (.windowDelayExpiry b) s
          = .next (formedAt s b (s.bay b) (finalResult b st rp (neverOpened s st.tag)))))
  ∧ (∀ (b : BayId) (s : State) (st : Step), (s.bay b).mu.exchangeAcc.due = true →
      (s.bay b).flight = .step st → st.window = .opened →
      let y := s.bay b
      let free : Mu := { y.mu with exchangeAcc := { y.mu.exchangeAcc with state := .free } }
      (st.reply = none →
        exec (.windowCompletion b .exchange) s = .next (s.setBay b { y with
          mu := free, flight := .step { st with window := .done y.mu.exchangeAcc.completed } }))
      ∧ (∀ rp, st.reply = some rp → y.power = .on →
        exec (.windowCompletion b .exchange) s = .next (formedAt s b { y with mu := free }
          (finalResult b st rp (some y.mu.exchangeAcc.completed)))))
  ∧ (∀ (b : BayId) (s : State), (s.bay b).mu.exchangeAcc.due = false →
      exec (.windowCompletion b .exchange) s = .next s)

/-- The settle timer's expiry ends the interval and nothing else: the period in progress keeps its settle
state (R63, R65). -/
def Obligations.SettleExpiryEndsTheInterval : Prop :=
  ∀ (b : BayId) (s : State), (s.bay b).mu.settleTimer.isSome = true →
    exec (.settleTimerExpiry b) s
      = .next (s.setBay b { s.bay b with mu := { (s.bay b).mu with settleTimer := none } })

/-! ## The phone line (chapter 5) -/

/-- Bytes of an uplink line at a bay whose output is on: a byte other than CR and LF is stored, or past
124 stored bytes discarded with the discard mark set; a CR or an LF ends the line being assembled,
whole, over-long or broken, which is classified and routed at once at an EMPTY assembler, and a pending
receive rate is applied; a line end at an EMPTY assembler has no effect but on the CR-end mark; a framing
fault breaks the line; the line timer's expiry counts garbage. With the output off nothing is received
(R68, R69, R73 to R76, R78). -/
def Obligations.UplinkAssemblyRules : Prop :=
  (∀ (b : BayId) (s : State), (s.bay b).power.outputOn = true →
      let y := s.bay b
      (∀ x : Byte, x ≠ 0x0D → x ≠ 0x0A →
        (y.line.assembly = none →
          exec (.uplinkByte b x) s = .next (s.setBay b { y with line := { y.line with
            crEnd := false,
            assembly := some { stored := [x], discard := false, broken := false,
                               timer := { length := 500, left := 500 } } } }))
        ∧ (∀ a, y.line.assembly = some a →
          exec (.uplinkByte b x) s = .next (s.setBay b { y with line := { y.line with
            crEnd := false,
            assembly := some (if a.stored.length < 124 then { a with stored := a.stored ++ [x] }
                              else { a with discard := true }) } })))
      ∧ (∀ a, y.line.assembly = some a →
          let ended (cr : Bool) : State := s.setBay b { y with line := { y.line with
            assembly := none, crEnd := cr
            rxRate := y.line.rxPending.getD y.line.rxRate, rxPending := none } }
          exec (.uplinkByte b 0x0D) s = .next ((ended true).route b a.classify)
          ∧ exec (.uplinkByte b 0x0A) s = .next ((ended false).route b a.classify))
      ∧ (y.line.assembly = none → y.line.rxPending = none →
          exec (.uplinkByte b 0x0D) s
            = .next (s.setBay b { y with line := { y.line with crEnd := true } })
          ∧ exec (.uplinkByte b 0x0A) s
            = .next (s.setBay b { y with line := { y.line with crEnd := false } }))
      ∧ exec (.framingFault b) s = .next (s.setBay b { y with line := { y.line with
          crEnd := false,
          assembly := some (match y.line.assembly with
            | none => { stored := [], discard := false, broken := true,
                        timer := { length := 500, left := 500 } }
            | some a => { a with broken := true }) } })
      ∧ (y.line.assembly.isSome = true →
          exec (.lineTimerExpiry b) s = .next (s.setBay b { y with line := { y.line with
            assembly := none, crEnd := false, garbage := min 65535 (y.line.garbage + 1),
            rxRate := y.line.rxPending.getD y.line.rxRate, rxPending := none } })))
  ∧ (∀ (b : BayId) (x : Byte) (s : State), (s.bay b).power.outputOn = false →
      exec (.uplinkByte b x) s = .next s ∧ exec (.framingFault b) s = .next s)

/-- A whole uplink line received byte by byte: the bytes of a line of 1 to 124 bytes without CR and LF,
and then LF, do what the routing of the classified line does at a bay whose assembler is EMPTY again
(R73, R78). A broken line is garbage; otherwise `>` or `+`, two hexadecimal digits and a space make a
final or an interim with their token, `!` an event and `#` a log line, each with the first 120 bytes of
its text and marked truncated when bytes were cut or discarded; every other line is garbage (R74, R78).
An event that is not a ready line raises PHONE_EVENT; a log line is appended to the ring while
log_forward is on, or counted as dropped when the ring is full, and discarded while it is off; garbage
is counted (R83 to R85, R157). -/
def Obligations.LineIsClassifiedWhole : Prop :=
  (∀ (b : BayId) (s : State) (line : List Byte),
    (s.bay b).power.outputOn = true → (s.bay b).line.assembly = none →
    (s.bay b).line.rxPending = none →
    1 ≤ line.length → line.length ≤ 124 → (∀ x ∈ line, x ≠ 0x0D ∧ x ≠ 0x0A) →
    run ((line ++ [0x0A]).map (Instr.uplinkByte b)) s
      = .next ((s.setBay b { s.bay b with line := { (s.bay b).line with crEnd := false } }).route b
          (Assembly.classify { stored := line, discard := false, broken := false,
                               timer := { length := 500, left := 500 } })))
  ∧ (∀ (a : Assembly),
    (a.broken = true → a.classify = .garbage)
    ∧ (a.broken = false →
      (∀ text, let cut := a.discard || decide (120 < text.length)
        (a.stored = 0x21 :: text → a.classify = .event (text.take 120) cut)
        ∧ (a.stored = 0x23 :: text → a.classify = .log (text.take 120) cut)
        ∧ (∀ x0 x1 h l, hexValue x0 = some h → hexValue x1 = some l →
            (a.stored = 0x3E :: x0 :: x1 :: 0x20 :: text →
              a.classify = .final (BitVec.ofNat 8 (16 * h + l)) (text.take 120) cut)
            ∧ (a.stored = 0x2B :: x0 :: x1 :: 0x20 :: text →
              a.classify = .interim (BitVec.ofNat 8 (16 * h + l)) (text.take 120) cut)))
      ∧ ((∀ text, a.stored ≠ 0x21 :: text ∧ a.stored ≠ 0x23 :: text
            ∧ ∀ x0 x1 h l, hexValue x0 = some h → hexValue x1 = some l →
              a.stored ≠ 0x3E :: x0 :: x1 :: 0x20 :: text
              ∧ a.stored ≠ 0x2B :: x0 :: x1 :: 0x20 :: text) →
          a.classify = .garbage)))
  ∧ (∀ (b : BayId) (s : State) (text : List Byte) (cut : Bool),
    (isReady text = false → s.route b (.event text cut) = s.raiseFlag b .phoneEvent (.event cut text))
    ∧ ((s.bay b).params.logForward = true → s.atu.ring.length < 64 →
        s.route b (.log text cut) = { s with atu := { s.atu with ring := s.atu.ring ++ [{
          bay := b, seating := (s.bay b).seating, truncated := cut, text := text }] } })
    ∧ ((s.bay b).params.logForward = true → 64 ≤ s.atu.ring.length →
        s.route b (.log text cut) = { s with atu := { s.atu with
          dropped := (s.route b (.log text cut)).atu.dropped } }
        ∧ ∀ b', (s.route b (.log text cut)).atu.dropped.get b'
            = if b' = b then min 65535 (s.atu.dropped.get b + 1) else s.atu.dropped.get b')
    ∧ ((s.bay b).params.logForward = false → s.route b (.log text cut) = s)
    ∧ s.route b .garbage = s.setBay b { s.bay b with line := { (s.bay b).line with
        garbage := min 65535 ((s.bay b).line.garbage + 1) } })

/-- A ready line taken in ON is a reboot: the line on the wire is stopped, every step ends with a final
REBOOTED (one whose reply phase is over keeps its outcome), the token is 00, the link is IDLE or
HOLDING, REBOOT carries the number of steps ended, and the bay stays ON (R71, R82, R114, R116, R120).
An exchange window made due by an earlier boundary has completed before, so that a step it leaves with
nothing to wait for is gone and not counted (Table 7.9; log entry 10). -/
def Obligations.ReadyInOnIsAReboot : Prop :=
  ∀ (b : BayId) (s : State) (text : List Byte) (cut : Bool), isReady text = true →
    (s.bay b).power = .on →
    let t := s.route b (.event text cut)
    let ended : State → ClassData := fun u => .steps ((if (u.bay b).flight.isStep then 1 else 0)
      + ((u.bay b).places.filter Place.isStep).length)
    (t.bay b).power = .on ∧ (t.bay b).token = 0 ∧ (t.bay b).line.sending = none
    ∧ (t.bay b).flight.isStep = false ∧ (∀ q ∈ (t.bay b).places, q.isStep = false)
    ∧ EndedSteps .rebooted b s t
    ∧ ((t.bay b).link = if (t.bay b).holdsResult then Link.holding else Link.idle)
    ∧ (t.bay b).bootTime = (s.bay b).bootTime ∧ (t.bay b).bootTimer = (s.bay b).bootTimer
    ∧ ((s.bay b).mu.exchangeAcc.due = false → (t.flag b .reboot).data = ended s)
    ∧ (∀ u, exec (.windowCompletion b .exchange) s = .next u → (t.flag b .reboot).data = ended u)
    ∧ (t.flag b .reboot).state ≠ .clear ∧ (t.flag b .reboot).seating = (s.bay b).seating
    ∧ ((s.bay b).params.settleOnChanges = true → (s.bay b).mu.sampling = .sampling →
        0 < (s.bay b).params.settleMs →
        (t.bay b).mu.settleTimer = started (s.bay b).params.settleMs
        ∧ (t.bay b).mu.periodSettle = true)
    ∧ OnlyBay b s t ∧ SameStation s t
    ∧ (∀ b' c, (b', c) ≠ (b, AttClass.reboot) → t.flag b' c = s.flag b' c)

/-- The end of transmission of a downlink line spends its token and applies a pending transmit rate; the
step in flight in SENDING_LINE then awaits its reply with its deadline running from the full length,
and without a step in SENDING_LINE nothing more happens (R69, R72, R106). -/
def Obligations.LineSentStartsTheDeadline : Prop :=
  ∀ (b : BayId) (s : State) (line : List Byte), (s.bay b).line.sending = some line →
    let y := s.bay b
    let z : Bay := { y with
      token := y.token + 1
      line := { y.line with
        sending := none, txRate := y.line.txPending.getD y.line.txRate, txPending := none } }
    (y.link ≠ .sendingLine → exec (.downlinkEndOfTransmission b) s = .next (s.setBay b z))
    ∧ (∀ st, y.link = .sendingLine → y.flight = .step st →
        let st' : Step := { st with
          deadline := .running { length := st.replyDeadlineMs, left := st.replyDeadlineMs }
          clock := 0 }
        ((∀ w, s.windowOf st.tag = some w → w.anchor = .atReply) →
          exec (.downlinkEndOfTransmission b) s
            = .next (s.setBay b { z with link := .awaiting, flight := .step st' }))
        ∧ (∀ w, s.windowOf st.tag = some w → w.anchor = .atSend → w.delayMs ≠ 0 →
          exec (.downlinkEndOfTransmission b) s
            = .next (s.setBay b { z with
                link := .awaiting, flight := .step st', windowDelay := started w.delayMs }))
        ∧ (∀ w, s.windowOf st.tag = some w → w.anchor = .atSend → w.delayMs = 0 →
          y.mu.sampling = .sampling →
          exec (.downlinkEndOfTransmission b) s
            = .next (s.setBay b { z with
                link := .awaiting, windowDelay := none,
                flight := .step { st' with window := .opened },
                mu := { y.mu with exchangeAcc := { Accumulator.cleared with
                  state := .starting, length := w.length, spec := some w } } })))

/-! ## Targets, groups and settings (chapter 6) -/

/-- The whole-request target checks in their order: a bay set naming an absent bay, a group number of 16
or above, an undefined group, a pin list naming an absent bay or one bay twice, an empty set; a target
that passes them resolves to its set. POWER_ON, POWER_OFF, ZERO, CONFIGURE_BAY and ACK_ATTENTION answer a
target that fails one with its status alone and do nothing else (SendCreatesTheExchange says it of
SEND). A bay is stale exactly when the pin list names it with another seating number than its own. A
verdict list has each bay of the resolved set either accepted or refused with its reason, the refused
ones in ascending order, and its status is OK, PARTIAL or NONE_ACCEPTED by what it holds (R86 to R89,
Table 6.1). -/
def Obligations.TargetChecksInOrder : Prop :=
  (∀ (s : State) (pins : List Pin),
    let badPins : Prop := (∃ q ∈ pins, s.bayCount ≤ q.bay) ∨ ¬(pins.map fun q => q.bay).Nodup
    (∀ S : BaySet,
      let absent : Prop := ∃ b : BayId, inSet S b = true ∧ s.bayCount ≤ b.val
      (absent → s.resolve { form := .bays S, pins := pins } = .error .badTarget)
      ∧ (¬absent → badPins ∨ S = 0 → s.resolve { form := .bays S, pins := pins } = .error .badTarget)
      ∧ (¬absent → ¬badPins → S ≠ 0 → s.resolve { form := .bays S, pins := pins } = .ok S))
    ∧ (∀ n : Nat, 16 ≤ n → s.resolve { form := .group n, pins := pins } = .error .badTarget)
    ∧ (∀ n : Fin 16,
      ((s.group n).defined = false →
        s.resolve { form := .group n.val, pins := pins } = .error .unknownGroup)
      ∧ ((s.group n).defined = true → badPins ∨ (s.group n).bays = 0 →
        s.resolve { form := .group n.val, pins := pins } = .error .badTarget)
      ∧ ((s.group n).defined = true → ¬badPins → (s.group n).bays ≠ 0 →
        s.resolve { form := .group n.val, pins := pins } = .ok (s.group n).bays)))
  ∧ (∀ (s : State) (tag : Tag) (p : List Byte) (e : Status), Arrives s p → tag ≠ 0 →
    let refused (kind : Byte) : Host.Outcome State Fault Refusal :=
      .next ((atTaking s).answer kind tag e .none)
    (∀ r, readPowerOn p = some r → r.meaningful = true → s.resolve r.target = .error e →
      exec (.powerOn tag p) s = refused 0x06)
    ∧ (∀ g, readTargetOnly p = some g → g.meaningful = true → s.resolve g = .error e →
      exec (.powerOff tag p) s = refused 0x07 ∧ exec (.zero tag p) s = refused 0x08)
    ∧ (∀ r, readConfigureBay p = some r → r.meaningful = true → s.resolve r.target = .error e →
      exec (.configureBay tag p) s = refused 0x03)
    ∧ (∀ r, readAck p = some r → r.meaningful = true → s.resolve r.target = .error e →
      exec (.ackAttention tag p) s = refused 0x0D))
  ∧ (∀ (s : State) (pins : List Pin) (b : BayId),
    s.stale pins b = true ↔ ∃ q ∈ pins, q.bay = b.val ∧ q.seating ≠ (s.bay b).seating)
  ∧ (∀ (S : BaySet) (judge : BayId → Option Reason),
    let v := verdictsOf S judge
    (∀ b, inSet v.accepted b = true ↔ inSet S b = true ∧ judge b = none)
    ∧ (∀ b r, (b, r) ∈ v.refused ↔ inSet S b = true ∧ judge b = some r)
    ∧ (v.refused.map fun x => x.1).Pairwise (· < ·)
    ∧ (S ≠ 0 → (v.status = .ok ↔ v.accepted = S) ∧ (v.status = .noneAccepted ↔ v.accepted = 0)
      ∧ (v.status = .partialOk ↔ v.accepted ≠ 0 ∧ v.refused ≠ [])))

/-- CONFIGURE_BAY taken: the bays of the set whose pin is current are accepted and the rest refused STALE;
every accepted bay stores the applied set made good by R95 (range_mode apart, which a sampling unit
takes as pending), and its supply holds the limits now stored. A changed supply_mv slews an output that
is on, and with settle_on_changes on, as now stored, it starts the settle interval afresh with settle_ms,
or ends it when that is 0; a link_rate is in force at once in each direction that stands at a line
boundary and pending in one that does not; any monitor parameter restarts the monitor once: count 0, and
a fresh window to open while monitor_on is on and the unit samples, STOPPED otherwise. A NONE_ACCEPTED
answer changes no bay. Beside parameters, supply, line and unit an accepted bay keeps everything (R60,
R64, R69, R93, R95, R97). That a report of the supply's conditions after a change of its limits is a
command of its own, and so no trip timer changes here, is the model's (log entry 22); that a monitor
window made due by an earlier boundary completes first, and may raise BAND, is log entry 10; that the
answer carries 1 for a switch that is on is log entry 29. Every step keeps every stored parameter at an
allowed value, with the two relations of R95. -/
def Obligations.ConfigureBayStoresTheAppliedSet : Prop :=
  (∀ (tag : Tag) (p : List Byte) (s : State) (r : ConfigureBayRequest) (S : BaySet),
    Arrives s p → tag ≠ 0 → readConfigureBay p = some r → r.meaningful = true →
    s.resolve r.target = .ok S →
    let a := r.values.applied
    let v := verdictsOf S fun b => if s.stale r.target.pins b then some .stale else none
    ∃ t, exec (.configureBay tag p) s = .next t
      ∧ Answered s t { tag := tag, kind := 0x03, status := v.status,
                       content := s.configureContent a v }
      ∧ SameElsewhere s t
      ∧ (∀ b c, c ≠ AttClass.band → t.flag b c = s.flag b c)
      ∧ (∀ b, ¬(inSet v.accepted b = true ∧ a.touchesMonitor = true
            ∧ (s.bay b).mu.monitorAcc.due = true) →
          t.flag b .band = s.flag b .band)
      ∧ ∀ b, (inSet v.accepted b = true →
            let y := s.bay b
            let now := y.params.store a
            let slews : Prop := y.power.outputOn = true ∧ now.supplyMv ≠ y.params.supplyMv
            let triggers : Prop := slews ∧ now.settleOnChanges = true ∧ y.mu.sampling = .sampling
            { (t.bay b).params with rangeMode := y.params.rangeMode } = now
            ∧ (t.bay b).supply.limitMa = now.limitMa
            ∧ (t.bay b).supply.brownoutMv = now.brownoutMv
            ∧ (t.bay b).supply.on = y.supply.on
            ∧ (slews → (t.bay b).supply.setMv = now.supplyMv)
            ∧ (¬slews → (t.bay b).supply.setMv = y.supply.setMv)
            ∧ (triggers → now.settleMs ≠ 0 → (t.bay b).mu.settleTimer = started now.settleMs
                ∧ (t.bay b).mu.periodSettle = true)
            ∧ (triggers → now.settleMs = 0 → (t.bay b).mu.settleTimer = none
                ∧ (t.bay b).mu.periodSettle = y.mu.periodSettle)
            ∧ (¬triggers → (t.bay b).mu.settleTimer = y.mu.settleTimer
                ∧ (t.bay b).mu.periodSettle = y.mu.periodSettle)
            ∧ (a.touchesMonitor = true → (t.bay b).mu.outOfBand = 0
                ∧ (now.monitorOn = true ∧ y.mu.sampling = .sampling →
                    (t.bay b).mu.monitorState = .watching
                    ∧ (t.bay b).mu.monitorAcc = { Accumulator.cleared with
                        state := .starting, length := now.monitorWindow })
                ∧ (¬(now.monitorOn = true ∧ y.mu.sampling = .sampling) →
                    (t.bay b).mu.monitorState = .stopped
                    ∧ (t.bay b).mu.monitorAcc.state = .free)
                ∧ (y.mu.monitorAcc.due = false →
                    (t.bay b).mu.lastSummary = y.mu.lastSummary))
            ∧ (a.touchesMonitor = false → (t.bay b).mu.outOfBand = y.mu.outOfBand
                ∧ (t.bay b).mu.monitorState = y.mu.monitorState
                ∧ (t.bay b).mu.monitorAcc = y.mu.monitorAcc
                ∧ (t.bay b).mu.lastSummary = y.mu.lastSummary)
            ∧ (t.bay b).mu.exchangeAcc = y.mu.exchangeAcc
            ∧ (∀ mode, a.rangeMode = some mode → y.mu.sampling = .sampling →
                (t.bay b).mu.pendingRange = some (modeOf mode)
                ∧ (t.bay b).params.rangeMode = y.params.rangeMode)
            ∧ (∀ mode, a.rangeMode = some mode → y.mu.sampling ≠ .sampling →
                (t.bay b).params.rangeMode = modeOf mode)
            ∧ (a.rangeMode = none → (t.bay b).mu.pendingRange = y.mu.pendingRange
                ∧ (t.bay b).params.rangeMode = y.params.rangeMode)
            ∧ (∀ rate, a.linkRate = some rate → y.line.sending = none →
                y.line.assembly = none →
                (t.bay b).line.txRate = rateOf rate ∧ (t.bay b).line.rxRate = rateOf rate)
            ∧ (t.bay b).line = (match a.linkRate with
                | none => y.line
                | some rate => { y.line with
                    txRate := if y.line.sending = none then rateOf rate else y.line.txRate
                    txPending := if y.line.sending = none then none else some (rateOf rate)
                    rxRate := if y.line.assembly = none then rateOf rate else y.line.rxRate
                    rxPending := if y.line.assembly = none then none else some (rateOf rate) })
            ∧ (t.bay b).seating = y.seating ∧ (t.bay b).seat = y.seat
            ∧ (t.bay b).power = y.power ∧ (t.bay b).flight = y.flight
            ∧ (t.bay b).places = y.places ∧ (t.bay b).key = y.key
            ∧ (t.bay b).bootDeadline = y.bootDeadline
            ∧ (t.bay b).limitTrip = y.limitTrip ∧ (t.bay b).brownoutTrip = y.brownoutTrip
            ∧ (t.bay b).rise = y.rise
            ∧ t.bay b = { y with
                params := (t.bay b).params, line := (t.bay b).line
                supply := { y.supply with
                  setMv := (t.bay b).supply.setMv, limitMa := now.limitMa
                  brownoutMv := now.brownoutMv }
                mu := { y.mu with
                  pendingRange := (t.bay b).mu.pendingRange
                  settleTimer := (t.bay b).mu.settleTimer
                  periodSettle := (t.bay b).mu.periodSettle
                  monitorState := (t.bay b).mu.monitorState, outOfBand := (t.bay b).mu.outOfBand
                  lastSummary := (t.bay b).mu.lastSummary
                  monitorAcc := (t.bay b).mu.monitorAcc } })
          ∧ (inSet v.accepted b = false → t.bay b = s.bay b))
  ∧ (∀ s t : State, s.ParamsLegal → step s = .next t → t.ParamsLegal)

/-- The applied value of each present parameter depends on the request alone and is an allowed one:
rounded down to its step and limited to its range, brownout_mv beside supply_mv at most 200 below it,
monitor_hi beside monitor_lo at least it, another range_mode code AUTO, and a switch off at 0 alone (R94,
Tables 6.5 and 6.6). That the applied value of a switch that is on is 1 is the model's choice (log
entry 29). -/
def Obligations.AppliedValuesAreAllowed : Prop :=
  ∀ v : Settings,
    let a := v.applied
    (∀ x, v.supplyMv = some x → a.supplyMv = some (max 3000 (min 4600 (10 * (x / 10)))))
    ∧ (∀ x, v.limitMa = some x → a.limitMa = some (max 100 (min 4000 (10 * (x / 10)))))
    ∧ (∀ x, v.brownoutMv = some x → ∃ y, a.brownoutMv = some y ∧ stepped 10 2500 4400 y
        ∧ (v.supplyMv = none → y = max 2500 (min 4400 (10 * (x / 10))))
        ∧ (∀ sv, a.supplyMv = some sv → y = min (max 2500 (min 4400 (10 * (x / 10)))) (sv - 200)))
    ∧ (∀ x, v.tripMs = some x → a.tripMs = some (max 1 (min 1000 x)))
    ∧ (∀ x, v.keyMs = some x → a.keyMs = some (max 100 (min 5000 x)))
    ∧ (∀ x, v.bootDeadlineMs = some x → a.bootDeadlineMs = some (max 1000 (min 120000 x)))
    ∧ (∀ x, v.replyDeadlineMs = some x → a.replyDeadlineMs = some (max 10 (min 60000 x)))
    ∧ (∀ x, v.extendLimit = some x → a.extendLimit = some (min 15 x))
    ∧ (∀ x, v.settleMs = some x → a.settleMs = some (min 500 x))
    ∧ (∀ x, v.monitorWindow = some x → a.monitorWindow = some (max 10 (min 30000 x)))
    ∧ (∀ x, v.linkRate = some x → ∃ y, a.linkRate = some y ∧ y ∈ [115200, 460800, 921600]
        ∧ (x < 115200 → y = 115200) ∧ (115200 ≤ x → y ≤ x)
        ∧ (∀ z ∈ [115200, 460800, 921600], z ≤ x → z ≤ y))
    ∧ (∀ x, v.monitorCount = some x → ∃ y, a.monitorCount = some y
        ∧ y ∈ [1, 2, 3, 4, 8, 16, 32, 64] ∧ (64 < x → y = 64) ∧ (x ≤ 64 → x ≤ y)
        ∧ (∀ z ∈ [1, 2, 3, 4, 8, 16, 32, 64], x ≤ z → y ≤ z))
    ∧ (∀ x, v.monitorLo = some x → a.monitorLo = some (max (-16384000) (min 16383500 x)))
    ∧ (∀ x, v.monitorHi = some x → ∃ y, a.monitorHi = some y ∧ currentInRange y
        ∧ (v.monitorLo = none → y = max (-16384000) (min 16383500 x))
        ∧ (∀ lo, a.monitorLo = some lo → y = max (max (-16384000) (min 16383500 x)) lo))
    ∧ (∀ x, v.rangeMode = some x → a.rangeMode = some (if x ≤ 2 then x else 0))
    ∧ (∀ x, v.settleOnChanges = some x → a.settleOnChanges = some (if x = 0 then 0 else 1))
    ∧ (∀ x, v.monitorOn = some x → a.monitorOn = some (if x = 0 then 0 else 1))
    ∧ (∀ x, v.logForward = some x → a.logForward = some (if x = 0 then 0 else 1))
    ∧ (v.supplyMv = none → a.supplyMv = none) ∧ (v.monitorLo = none → a.monitorLo = none)

/-- DEFINE_GROUP and DROP_GROUPS taken: a named entry is defined or overwritten whole and the answer says
whether it was defined; ANY takes the lowest undefined entry, or is answered TABLE_FULL; a bad number
or set is answered BAD_TARGET and leaves the table. DROP_GROUPS drops the named entry, the transient
ones or all, and answers with the set it dropped (R91, R92). That the payload of DROP_GROUPS has the
group number's byte in every mode is read from Table 11.5 (log entry 27). -/
def Obligations.GroupTableRequests : Prop :=
  ∀ (tag : Tag) (s : State), tag ≠ 0 →
    let u := atTaking s
    (∀ p r, Arrives s p → readDefineGroup p = some r →
      let bad : Prop := (16 ≤ r.number ∧ r.number ≠ 255) ∨ r.bays = 0
        ∨ ∃ b : BayId, inSet r.bays b = true ∧ s.bayCount ≤ b.val
      (bad → exec (.defineGroup tag p) s = .next (u.answer 0x04 tag .badTarget .none))
      ∧ (¬bad → ∀ n : Fin 16,
          (r.number = n.val ∨ (r.number = 255 ∧ (s.group n).defined = false
              ∧ ∀ k : Fin 16, k < n → (s.group k).defined = true)) →
          let g : Group := { defined := true, bays := r.bays, persistent := r.persistent }
          exec (.defineGroup tag p) s = .next ({ u with groups := s.groups.set n.val g n.isLt }.answer
            0x04 tag .ok (.group n (s.group n).defined)))
      ∧ (¬bad → r.number = 255 → (∀ n, (s.group n).defined = true) →
          exec (.defineGroup tag p) s = .next (u.answer 0x04 tag .tableFull .none)))
    ∧ (∀ p r, Arrives s p → readDropGroups p = some r →
      let drops : Fin 16 → Bool := fun n => (s.group n).defined
        && (if r.mode = 0 then decide (n.val = r.number)
            else if r.mode = 1 then !(s.group n).persistent else true)
      (2 < r.mode → exec (.dropGroups tag p) s = .next (u.answer 0x05 tag .badFormat .none))
      ∧ (r.mode = 0 → 16 ≤ r.number →
          exec (.dropGroups tag p) s = .next (u.answer 0x05 tag .badTarget .none))
      ∧ (∀ n : Fin 16, r.mode = 0 → r.number = n.val → (s.group n).defined = false →
          exec (.dropGroups tag p) s = .next (u.answer 0x05 tag .unknownGroup .none))
      ∧ (r.mode ≤ 2 → (r.mode = 0 → ∃ n : Fin 16, r.number = n.val ∧ (s.group n).defined = true) →
          ∃ (t : State) (D : BitVec 16), exec (.dropGroups tag p) s = .next t
            ∧ (∀ n : Fin 16, D.getLsbD n.val = drops n)
            ∧ (∀ n, t.group n = if drops n then Group.undefined else s.group n)
            ∧ t = { u with groups := t.groups }.answer 0x05 tag .ok (.dropped D)))

/-! ## Exchanges (chapter 7) -/

/-- SEND taken: the tag in use, a full table, a bad text or a bad window refuses it whole in that order;
otherwise a bay is refused STALE, NOT_READY unless ON, or QUEUE_FULL with four places occupied, and
with any bay accepted a record is created with the accepted set as target and pending set, and one step
is appended at the tail of each accepted bay's queue (R100, R101). That what Table 7.5 sets at dispatch
alone, the counts of extensions and of interims dropped among it, is 0 in that step until then is the
model's choice (log entry 26). -/
def Obligations.SendCreatesTheExchange : Prop :=
  ∀ (tag : Tag) (p : List Byte) (s : State) (r : SendRequest),
    Arrives s p → tag ≠ 0 → readSend p = some r → r.meaningful = true →
    let u := atTaking s
    let used : Prop := (s.exchange? tag).isSome = true
    let full : Prop := 32 ≤ s.exchanges.length
    let badText : Prop := r.text = [] ∨ 120 < r.text.length ∨ (0x0D : Byte) ∈ r.text
      ∨ (0x0A : Byte) ∈ r.text
    (used → exec (.send tag p) s = .next (u.answer 0x09 tag .duplicateTag .none))
    ∧ (¬used → full → exec (.send tag p) s = .next (u.answer 0x09 tag .tableFull .none))
    ∧ (¬used → ¬full → badText → exec (.send tag p) s = .next (u.answer 0x09 tag .badText .none))
    ∧ (¬used → ¬full → ¬badText → (∃ w, r.window = some w ∧ w.spec = none) →
        exec (.send tag p) s = .next (u.answer 0x09 tag .badWindow .none))
    ∧ (∀ spec S, ¬used → ¬full → ¬badText → r.windowSpec = .ok spec → s.resolve r.target = .ok S →
        let judge : BayId → Option Reason := fun b =>
          if s.stale r.target.pins b then some .stale
          else if (s.bay b).power ≠ .on then some .notReady
          else if 4 ≤ (s.bay b).places.length then some .queueFull
          else none
        let v := verdictsOf S judge
        ∃ t, exec (.send tag p) s = .next t
          ∧ Answered s t { tag := tag, kind := 0x09, status := v.status, content := .verdicts v }
          ∧ t.exchanges = s.exchanges ++ (if v.accepted = 0 then [] else [{
              tag := tag, text := r.text, target := v.accepted, pending := v.accepted, reported := 0,
              reportInterim := r.flags.getLsbD 0, window := spec, state := .opened,
              cancelled := false }])
          ∧ (∀ b, t.bay b = if inSet v.accepted b then { s.bay b with
              places := (s.bay b).places ++ [.step {
                tag := tag, seating := (s.bay b).seating, token := 0, replyDeadlineMs := 0,
                extendLimit := 0, deadline := .notStarted, extensions := 0, interimsDropped := 0,
                reply := none, clock := 0,
                window := if spec.isSome then .scheduled else .none }] }
              else s.bay b)
          ∧ t.clb = s.clb ∧ t.atu = s.atu ∧ t.groups = s.groups)
    ∧ (∀ spec e, ¬used → ¬full → ¬badText → r.windowSpec = .ok spec →
        s.resolve r.target = .error e →
        exec (.send tag p) s = .next (u.answer 0x09 tag e .none))

/-- Dispatch: with link and transmitter IDLE and a step at the head of the queue, the step leaves its
place for the flight slot with the token and the reply parameters in force, and its line
`@` token space text LF is on the wire; otherwise nothing is dispatched (R70, R105). That the command then
changes nothing is read by inference (log entry 9). -/
def Obligations.DispatchSendsTheHeadStep : Prop :=
  ∀ (b : BayId) (s : State),
    let y := s.bay b
    (∀ st ps x, y.link = .idle → y.line.sending = none → y.places = .step st :: ps →
        s.exchange? st.tag = some x →
        exec (.stepDispatch b) s = .next (s.setBay b { y with
          places := ps, link := .sendingLine,
          flight := .step { st with
            token := y.token, replyDeadlineMs := y.params.replyDeadlineMs,
            extendLimit := y.params.extendLimit, deadline := .notStarted, extensions := 0,
            interimsDropped := 0, clock := 0 },
          line := { y.line with sending := some (downlinkLine y.token x.text) } }))
    ∧ ((y.link ≠ .idle ∨ y.line.sending ≠ none ∨ y.places = []) →
        exec (.stepDispatch b) s = .next s)

/-- A matching final ends the reply phase with PHONE_ERROR for a text that begins with ERR and OK
otherwise: with no window to wait for the final result is formed, with that outcome, the text, the
elapsed count and the summary taken before, and handed over; with an AT_REPLY window scheduled the step
enters MEASURING and its delay starts, or with delay 0 the window opens at once; with an open window or
an AT_SEND one scheduled it enters MEASURING (R80, R108, R112, R114). A matching interim extends the
step while its extensions are fewer than its limit, its deadline restarted in full, and where the
exchange reports interims its result is handed to the Collation Buffer, a drop being counted in the
step (R109, R110). A final or an interim that no step awaits is a stray, counted and discarded (R79). -/
def Obligations.MatchingFinalEndsTheReply : Prop :=
  (∀ (b : BayId) (s : State) (st : Step) (text : List Byte) (cut : Bool),
    (s.bay b).power = .on → (s.bay b).link = .awaiting → (s.bay b).flight = .step st →
    let t := s.route b (.final st.token text cut)
    let reply : Reply := {
      outcome := if text.take 3 = [0x45, 0x52, 0x52] then .phoneError else .ok
      text := text, truncated := cut, elapsed := st.clock }
    let done : Step := { st with deadline := .stopped, reply := some reply }
    (st.window = .none → t = formedAt s b (s.bay b) (finalResult b st reply none))
    ∧ (∀ w, st.window = .done w → t = formedAt s b (s.bay b) (finalResult b st reply (some w)))
    ∧ (st.window = .notOpened →
        t = formedAt s b (s.bay b) (finalResult b st reply (neverOpened s st.tag)))
    ∧ (st.window = .opened → t = s.setBay b { s.bay b with
        link := .measuring, flight := .step done })
    ∧ (∀ w, st.window = .scheduled → s.windowOf st.tag = some w → w.anchor = .atSend →
        t = s.setBay b { s.bay b with link := .measuring, flight := .step done })
    ∧ (∀ w, st.window = .scheduled → s.windowOf st.tag = some w → w.anchor = .atReply →
        (w.delayMs ≠ 0 → t = s.setBay b { s.bay b with
          link := .measuring, flight := .step done, windowDelay := started w.delayMs })
        ∧ (w.delayMs = 0 → (s.bay b).mu.sampling = .sampling → t = s.setBay b { s.bay b with
          link := .measuring, flight := .step { done with window := .opened }, windowDelay := none,
          mu := { (s.bay b).mu with exchangeAcc := { Accumulator.cleared with
            state := .starting, length := w.length, spec := some w } } })
        ∧ (w.delayMs = 0 → (s.bay b).mu.sampling ≠ .sampling →
          t = formedAt s b (s.bay b) (finalResult b st reply (neverOpened s st.tag)))))
  ∧ (∀ (b : BayId) (s : State) (st : Step) (text : List Byte) (cut : Bool),
    (s.bay b).link = .awaiting → (s.bay b).flight = .step st →
    let t := s.route b (.interim st.token text cut)
    let ext : Step := if st.extensions < st.extendLimit then { st with
        extensions := st.extensions + 1
        deadline := .running { length := st.replyDeadlineMs, left := st.replyDeadlineMs } } else st
    let r : Result := {
      bay := b, seating := st.seating, tag := st.tag, kind := .interim, outcome := none,
      truncated := cut, extensions := ext.extensions, interimsDropped := st.interimsDropped,
      elapsed := st.clock, text := text, window := none }
    ((∀ x, s.exchange? st.tag = some x → x.reportInterim = false) →
        t = s.setBay b { s.bay b with flight := .step ext })
    ∧ (∀ x, s.exchange? st.tag = some x → x.reportInterim = true →
        t = (s.collate r).1.setBay b { s.bay b with
          flight := .step (if (s.collate r).2 then ext
            else { ext with interimsDropped := min 255 (st.interimsDropped + 1) }) }))
  ∧ (∀ (b : BayId) (s : State) (tok : Token) (text : List Byte) (cut : Bool),
    ((s.bay b).link ≠ .awaiting ∨ ∀ st, (s.bay b).flight = .step st → st.token ≠ tok) →
    let stray : State := s.setBay b { s.bay b with line := { (s.bay b).line with
      stray := min 65535 ((s.bay b).line.stray + 1) } }
    s.route b (.final tok text cut) = stray ∧ s.route b (.interim tok text cut) = stray)

/-- The reply deadline's expiry in AWAITING ends the reply phase TIMEOUT: a step with no window to wait
for, and one with an AT_REPLY window scheduled, which does not open, forms its final at once, with
outcome TIMEOUT, an empty text and its elapsed count, and hands it over; one with an open window or an
AT_SEND one scheduled enters MEASURING (R111, R112, R114). -/
def Obligations.DeadlineExpiryTimesOut : Prop :=
  ∀ (b : BayId) (s : State) (st : Step) (m : Timer),
    (s.bay b).power = .on → (s.bay b).link = .awaiting → (s.bay b).flight = .step st →
    st.deadline = .running m →
    let reply : Reply := { outcome := .timeout, text := [], truncated := false, elapsed := st.clock }
    let done : Step := { st with deadline := .stopped, reply := some reply }
    (st.window = .none → exec (.replyDeadlineExpiry b) s
      = .next (formedAt s b (s.bay b) (finalResult b st reply none)))
    ∧ (∀ w, st.window = .done w → exec (.replyDeadlineExpiry b) s
      = .next (formedAt s b (s.bay b) (finalResult b st reply (some w))))
    ∧ (st.window = .notOpened
        ∨ (st.window = .scheduled ∧ ∃ w, s.windowOf st.tag = some w ∧ w.anchor = .atReply) →
      exec (.replyDeadlineExpiry b) s
        = .next (formedAt s b (s.bay b) (finalResult b st reply (neverOpened s st.tag))))
    ∧ (st.window = .opened
        ∨ (st.window = .scheduled ∧ ∃ w, s.windowOf st.tag = some w ∧ w.anchor = .atSend) →
      exec (.replyDeadlineExpiry b) s
        = .next (s.setBay b { s.bay b with link := .measuring, flight := .step done }))

/-- CANCEL taken: an unknown tag is answered UNKNOWN_TAG, a DRAINING exchange OK with three zero counts;
for an OPEN one the step of each pending bay ends with a final CANCELLED (one in MEASURING keeps its
outcome), which is handed over, the record's cancelled flag is set and its pending set empty, the answer
counts the pending bays by where their step stood, no pending bay keeps a step of the exchange, the other
steps keep their order, and bays that were not pending are untouched (R114, R116, R117, R122). The
premise on each pending bay is R103's: it holds one step of the exchange; the one on a DRAINING record is
R113's: nothing is pending in it (StepKeepsExchangesLegal has both). A
window made due at a pending bay by an earlier boundary completes first (Table 7.9; log entry 10); the
ascending order of the bays is the model's choice (log entry 25). -/
def Obligations.CancelEndsThePendingSteps : Prop :=
  ∀ (tag : Tag) (s : State), Arrives s [] → tag ≠ 0 →
    let u := atTaking s
    let none' : Content := .cancelCounts 0 0 0
    (s.exchange? tag = none →
      exec (.cancel tag []) s = .next (u.answer 0x0A tag .unknownTag .none))
    ∧ (∀ x, s.exchange? tag = some x → x.state = .draining → x.pending = 0 →
      exec (.cancel tag []) s = .next (u.answer 0x0A tag .ok none'))
    ∧ (∀ x v, s.exchange? tag = some x →
      run ((allBays.filter (inSet x.pending)).map fun b => .windowCompletion b .exchange) s = .next v →
      exec (.cancel tag []) s = exec (.cancel tag []) v)
    ∧ (∀ x, s.exchange? tag = some x → x.state = .opened →
      (∀ b, inSet x.pending b = true → (s.bay b).mu.exchangeAcc.due = false) →
      (∀ b, inSet x.pending b = true →
        ((s.bay b).flight.isStep = true ∧ (∃ st, (s.bay b).flight = .step st ∧ st.tag = tag)
          ∧ ∀ q ∈ (s.bay b).places, q.isStepOf tag = false)
        ∨ ((∀ st, (s.bay b).flight = .step st → st.tag ≠ tag)
          ∧ ((s.bay b).places.filter (Place.isStepOf tag)).length = 1)) →
      let finals : List Result := allBays.flatMap fun b =>
        if inSet x.pending b then
          (endedFinals s b .cancelled).filter fun r => decide (r.tag = tag)
        else []
      ∃ t q f m, exec (.cancel tag []) s = .next t
        ∧ Answered s t { tag := tag, kind := 0x0A, status := .ok, content := .cancelCounts q f m }
        ∧ q = (allBays.filter fun b => inSet x.pending b
            && (s.bay b).places.any (Place.isStepOf tag)).length
        ∧ f = (allBays.filter fun b => inSet x.pending b && inFlightOf tag (s.bay b)
            && !decide ((s.bay b).link = .measuring)).length
        ∧ m = (allBays.filter fun b => inSet x.pending b && inFlightOf tag (s.bay b)
            && decide ((s.bay b).link = .measuring)).length
        ∧ q + f + m = (allBays.filter fun b => inSet x.pending b).length
        ∧ t.clb = (handOvers finals s).1.clb
        ∧ t.exchanges = ((handOvers finals s).1.exchanges.map fun x' =>
            if x'.tag = tag then { x' with cancelled := true } else x')
        ∧ (∃ x', t.exchange? tag = some x' ∧ x'.cancelled = true ∧ x'.pending = 0
            ∧ (x.pending ≠ 0 → x'.state = .draining)
            ∧ x'.target = x.target ∧ x'.reported = x.reported ∧ x'.text = x.text)
        ∧ (∀ b, inSet x.pending b = true →
            (∀ st, (t.bay b).flight = .step st → st.tag ≠ tag)
            ∧ (∀ k ∈ (t.bay b).places, k.isStepOf tag = false)
            ∧ (t.bay b).places.filter Place.isStep
                = ((s.bay b).places.filter Place.isStep).filter fun k => !k.isStepOf tag
            ∧ (inFlightOf tag (s.bay b) = true →
                ((t.bay b).flight = .empty ∨ (t.bay b).flight = .held tag)
                ∧ (t.bay b).places = (s.bay b).places)
            ∧ (inFlightOf tag (s.bay b) = false → (t.bay b).flight = (s.bay b).flight)
            ∧ (t.bay b).power = (s.bay b).power ∧ (t.bay b).line = (s.bay b).line
            ∧ (t.bay b).token = (s.bay b).token)
        ∧ (∀ b, inSet x.pending b = false → t.bay b = s.bay b)
        ∧ t.atu = s.atu ∧ t.groups = s.groups)

/-! ## The Collation Buffer (chapter 8) -/

/-- A result handed over is merged into the OPEN entry of its key; with none, it opens an entry at the
tail while fewer than eight are occupied; with no room a final is held at the tail of the hold queue
and an interim dropped. Finals leave the exchange's pending set (R112, R113, R127, R128). -/
def Obligations.ResultsArePlacedByTheFirstCase : Prop :=
  ∀ (s : State) (r : Result),
    let k := boardOf r.bay
    let takes : Entry → Bool := fun e => decide (e.tag = r.tag) && decide (e.board = k) && !e.sending
    let slot := slotOf r.bay
    let put : Entry → Entry := fun e => { e with slots := e.slots.set slot.val (some r) slot.isLt }
    let fresh : Entry := put {
      tag := r.tag, board := k, age := 0, syncMark := false, queryMark := false, sending := false,
      finalMark := false, dropped := false, slots := Vector.replicate 8 none }
    let es := s.clb.entries
    ((∃ e ∈ es, takes e = true) →
      (s.collate r).2 = true ∧ (s.collate r).1.clb.hold = s.clb.hold
      ∧ (s.collate r).1.clb.entries = es.map fun e => if takes e then put e else e)
    ∧ ((∀ e ∈ es, takes e = false) → es.length < 8 →
      (s.collate r).2 = true ∧ (s.collate r).1.clb.hold = s.clb.hold
      ∧ (s.collate r).1.clb.entries = es ++ [fresh])
    ∧ ((∀ e ∈ es, takes e = false) → 8 ≤ es.length →
      (s.collate r).2 = false ∧ (s.collate r).1.clb.entries = es
      ∧ (s.collate r).1.clb.hold = s.clb.hold ++ (if r.kind = .final then [r] else []))
    ∧ (s.collate r).1 = { s with clb := (s.collate r).1.clb }
    ∧ (s.handOver r).2 = (s.collate r).2
    ∧ (s.handOver r).1.clb.entries = (s.collate r).1.clb.entries
    ∧ (s.handOver r).1.clb.hold = (s.collate r).1.clb.hold
    ∧ ∀ x, s.exchange? r.tag = some x → ∃ x', (s.handOver r).1.exchange? r.tag = some x'
      ∧ (∀ b, inSet x'.pending b = (inSet x.pending b && decide (b ≠ r.bay)))
      ∧ (x'.pending = 0 → x'.state = .draining) ∧ (x'.pending ≠ 0 → x'.state = x.state)
      ∧ x'.target = x.target ∧ x'.reported = x.reported ∧ x'.cancelled = x.cancelled

/-- The 1 ms tick ages every occupied entry, holding at 5,000, and offers the head exactly when it is due:
OPEN and complete, behind it an OPEN complete entry, as many entries occupied as batch_pressure, its
age at batch_hold_ms, or marked (R131 to R133, Table 8.3). -/
def Obligations.AgeTickOffersTheDueHead : Prop :=
  ∀ s : State, ∃ t, exec .batchAgeTick s = .next t
    ∧ t.clb.entries = s.clb.entries.map (fun e => { e with age := min 5000 (e.age + 1) })
    ∧ t = { s with clb := { s.clb with entries := t.clb.entries, offer := t.clb.offer } }
    ∧ (s.clb.entries = [] → t.clb.offer = false)
    ∧ (∀ e rest, t.clb.entries = e :: rest →
        let complete : Entry → Prop := fun e' => ∃ x, s.exchange? e'.tag = some x
          ∧ ∀ b, boardOf b = e'.board → inSet x.target b = true → inSet x.reported b = false →
              ∃ r, e'.slots.get (slotOf b) = some r ∧ r.kind = .final
        (t.clb.offer = true ↔ e.sending = false
          ∧ (complete e ∨ (∃ e' ∈ rest, e'.sending = false ∧ complete e')
            ∨ s.clb.pressure ≤ t.clb.entries.length ∨ s.clb.holdMs ≤ e.age
            ∨ e.syncMark = true ∨ e.queryMark = true)))

/-- The taking of the offered head: it becomes SENDING with its content fixed, its final mark set exactly
when the exchange has no bay pending, no other entry and no held result, and the notice with the
trailer gathered then is on the wire. Nothing is taken while the transmitter is BUSY, while an answer or
a notice of level 3 stands ahead of the batch, or while no head is offered (R134, R170, R171, R172). That
the command then changes nothing is read by inference (log entry 9). -/
def Obligations.TakingFixesTheBatch : Prop :=
  (∀ (s : State) (e : Entry) (rest : List Entry) (x : Exchange),
    s.slc.transmitter = none → s.slc.answers = [] → s.clb.offer = true →
    (∀ q rest', s.atu.queue = q :: rest' → s.level q.2 ≠ 3) →
    s.clb.entries = e :: rest → s.exchange? e.tag = some x →
    ∃ t e', exec .takeBatchEntry s = .next t
      ∧ t.clb = { s.clb with entries := e' :: rest, offer := false }
      ∧ e' = { e with sending := true, finalMark := e'.finalMark }
      ∧ (e'.finalMark = true ↔ x.pending = 0 ∧ (∀ f ∈ rest, f.tag ≠ e.tag)
          ∧ ∀ r ∈ s.clb.hold, r.tag ≠ e.tag)
      ∧ t.slc = { s.slc with transmitter := some {
            bytes := frameOf (bodyOf 0x81 e.tag (e'.payload x.cancelled) ++ t.trailer),
            source := .batch, discarding := false } }
      ∧ t.bays = s.bays ∧ t.exchanges = s.exchanges ∧ t.atu = s.atu ∧ t.groups = s.groups)
  ∧ (∀ s : State,
    (s.slc.transmitter ≠ none ∨ s.slc.answers ≠ []
      ∨ (∃ q rest, s.atu.queue = q :: rest ∧ s.level q.2 = 3)
      ∨ s.clb.offer = false ∨ s.clb.entries = []) →
    exec .takeBatchEntry s = .next s)

/-- The end of a batch notice: its entry is freed, a final-marked one retires its exchange, any other adds
the bays of its finals to the reported set, and one that a station reset dropped does neither; the mark
count goes down for a marked one; then held results are placed as by a placement pass, and when the
count comes to 0 the parked request is completed, SYNC with OK and QUERY_BAY with the report of its bay
as it stands after the placing; the transmitter is FREE (R123, R136, R140, R143, R169). That the command
does nothing with no batch notice on the wire, or with no entry occupied, is read by inference (log
entry 9). What the pass and the completion do is said by PlacementPassFillsTheEntries and
SyncParksUntilNothingIsMarked. -/
def Obligations.BatchEndReportsAndRetires : Prop :=
  (∀ (s : State) (f : Transmission) (e : Entry) (rest : List Entry),
    s.slc.transmitter = some f → f.source = .batch → s.clb.entries = e :: rest → s.clb.hold = [] →
    e.dropped = false →
    let marked := e.syncMark || e.queryMark
    ∃ t, exec .batchEndOfTransmission s = .next t
      ∧ t.clb.entries = rest ∧ t.clb.hold = []
      ∧ t.clb.markCount = (if marked then s.clb.markCount - 1 else s.clb.markCount)
      ∧ t.slc.transmitter = none
      ∧ (e.finalMark = true → t.exchanges = s.exchanges.filter fun x => decide (x.tag ≠ e.tag))
      ∧ (e.finalMark = false → t.exchanges = s.exchanges.map fun x =>
          if x.tag = e.tag then { x with reported := x.reported ||| e.finals } else x)
      ∧ (∀ b, inSet e.finals b = true ↔ boardOf b = e.board
          ∧ ∃ r, e.slots.get (slotOf b) = some r ∧ r.kind = .final)
      ∧ (marked = true → s.clb.markCount = 1 → ∀ tag, s.slc.parked = some (.sync tag) →
          t.slc.parked = none
          ∧ Answered s t { tag := tag, kind := 0x0B, status := .ok, content := .none })
      ∧ (marked = false ∨ 2 ≤ s.clb.markCount →
          t.slc.parked = s.slc.parked ∧ t.slc.answers = s.slc.answers)
      ∧ t.bays = s.bays ∧ t.atu = s.atu ∧ t.groups = s.groups)
  ∧ (∀ (s : State) (f : Transmission) (e : Entry) (rest : List Entry),
    s.slc.transmitter = some f → f.source = .batch → s.clb.entries = e :: rest →
    let marked := e.syncMark || e.queryMark
    let freed : State := { s with
      clb := { s.clb with
        entries := rest, markCount := if marked then s.clb.markCount - 1 else s.clb.markCount }
      exchanges :=
        if e.dropped then s.exchanges
        else if e.finalMark then s.exchanges.filter fun x => decide (x.tag ≠ e.tag)
        else s.exchanges.map fun x =>
          if x.tag = e.tag then { x with reported := x.reported ||| e.finals } else x }
    let free : State → State := fun v => { v with slc := { v.slc with transmitter := none } }
    ∃ t u, exec .batchEndOfTransmission s = .next t ∧ exec .heldResultPlacement freed = .next u
      ∧ (marked = false ∨ 2 ≤ s.clb.markCount → t = free u)
      ∧ (marked = true → s.clb.markCount ≤ 1 →
        (∃ v, exec .parkedRequestCompletion u = .next v ∧ t = free v)
        ∧ (s.slc.parked = none → t = free u)
        ∧ (∀ tag, s.slc.parked = some (.sync tag) → t.slc.parked = none
            ∧ Answered s t { tag := tag, kind := 0x0B, status := .ok, content := .none })
        ∧ (∀ tag b, s.slc.parked = some (.query tag b) → t.slc.parked = none
            ∧ Answered s t { tag := tag, kind := 0x0C, status := .ok,
                             content := .bay (u.bayReport b) })))
  ∧ (∀ s : State, (∀ f, s.slc.transmitter = some f → f.source ≠ .batch) ∨ s.clb.entries = [] →
    exec .batchEndOfTransmission s = .next s)

/-- A placement pass places the held results that a case of Table 8.2 takes, one after another from the
head of the hold queue, and stops at the first that none takes: the entries are those that the placing
of each gives, so that a result placed stands in its slot of an entry of its key; the flight slot or the
place that held it at its bay is freed; what stays held is a tail of the queue, and afterwards the queue
is empty or all eight entries are occupied; a bay none of whose results was placed is unchanged, and no
step is touched (R115, R127, R128, R130). That two held results are never of one exchange and one bay is
an invariant (StepKeepsExchangesLegal). -/
def Obligations.PlacementPassFillsTheEntries : Prop :=
  ∀ s : State, s.clb.entries.length ≤ 8 →
    ∃ t placed, exec .heldResultPlacement s = .next t
      ∧ s.clb.hold = placed ++ t.clb.hold
      ∧ placed.foldlM (fun es r => placeIn r es) s.clb.entries = some t.clb.entries
      ∧ ((s.clb.hold.map fun r => (r.tag, r.bay)).Nodup → ∀ r ∈ placed, ∃ e ∈ t.clb.entries,
          e.tag = r.tag ∧ e.board = boardOf r.bay ∧ e.slots.get (slotOf r.bay) = some r)
      ∧ (∀ b, t.bay b = (placed.filter fun r => decide (r.bay = b)).foldl
          (fun y r => y.freeHeld r.tag) (s.bay b))
      ∧ (∀ b, (∀ r ∈ placed, r.bay ≠ b) → t.bay b = s.bay b)
      ∧ (t.clb.hold = [] ∨ t.clb.entries.length = 8)
      ∧ t.clb.entries.length ≤ 8 ∧ s.clb.entries.length ≤ t.clb.entries.length
      ∧ (∀ r rest, t.clb.hold = r :: rest →
          ∀ e ∈ t.clb.entries, ¬(e.tag = r.tag ∧ e.board = boardOf r.bay ∧ e.sending = false))
      ∧ (∀ b, ((t.bay b).flight.isStep = true → (t.bay b).flight = (s.bay b).flight)
          ∧ (t.bay b).places.filter Place.isStep = (s.bay b).places.filter Place.isStep
          ∧ (t.bay b).power = (s.bay b).power)
      ∧ t.slc = s.slc ∧ t.atu = s.atu ∧ t.exchanges = s.exchanges ∧ t.groups = s.groups

/-- SYNC taken: BUSY while a request is parked, OK at once with no entry occupied, and otherwise parked
with every occupied entry marked and counted; with the head OPEN it is offered. The completion of a
parked request once no entry is marked: its answer is queued, OK for SYNC and the bay's report for
QUERY_BAY, the slot is empty and nothing else changes (R139, R140, R169). That a completion with no
request parked does nothing is read by inference (log entry 9). -/
def Obligations.SyncParksUntilNothingIsMarked : Prop :=
  (∀ (tag : Tag) (s : State), Arrives s [] → tag ≠ 0 →
      let u := atTaking s
      (s.slc.parked ≠ none → exec (.sync tag []) s = .next (u.answer 0x0B tag .busy .none))
      ∧ (s.slc.parked = none → s.clb.entries = [] →
          exec (.sync tag []) s = .next (u.answer 0x0B tag .ok .none))
      ∧ (∀ e rest, s.slc.parked = none → s.clb.entries = e :: rest →
          exec (.sync tag []) s = .next { u with
            clb := { s.clb with
              entries := s.clb.entries.map fun e => { e with syncMark := true }
              markCount := s.clb.entries.length, offer := !e.sending }
            slc := { u.slc with parked := some (.sync tag) } }))
  ∧ (∀ s : State, s.clb.markCount = 0 →
      let freed : State := { s with slc := { s.slc with parked := none } }
      (∀ tag, s.slc.parked = some (.sync tag) →
        exec .parkedRequestCompletion s = .next (freed.answer 0x0B tag .ok .none))
      ∧ (∀ tag b, s.slc.parked = some (.query tag b) →
        exec .parkedRequestCompletion s
          = .next (freed.answer 0x0C tag .ok (.bay (s.bayReport b))))
      ∧ (s.slc.parked = none → exec .parkedRequestCompletion s = .next s))

/-- QUERY_BAY taken: a number at or above the bay count is BAD_TARGET; a bay of which no occupied entry
holds a result is answered at once with its report; otherwise the request is BUSY while one is parked,
and parks with every occupied entry marked (R141, R175). The report carries the parts of Table 10.7: the
bay's seat and power, its line counts, its flight slot and four places, its unit and monitor, its nine
flags in class order, its log-dropped count, and its result list, the held results in hold-queue order
before those in the entries in opening order (R115, R142, R156). That an item of that list has no window
summary is the model's choice (log entry 24). -/
def Obligations.QueryBayAnswersOrParks : Prop :=
  (∀ (tag : Tag) (n : Nat) (s : State), Arrives s [BitVec.ofNat 8 n] → tag ≠ 0 → n < 256 →
    let u := atTaking s
    let p : List Byte := [BitVec.ofNat 8 n]
    (s.bayCount ≤ n ∨ 24 ≤ n →
      exec (.queryBay tag p) s = .next (u.answer 0x0C tag .badTarget .none))
    ∧ (∀ b : BayId, b.val = n → n < s.bayCount →
      let inEntry : Prop := ∃ e ∈ s.clb.entries, e.board = boardOf b
        ∧ (e.slots.get (slotOf b)).isSome = true
      (¬inEntry → exec (.queryBay tag p) s
        = .next (u.answer 0x0C tag .ok (.bay (s.bayReport b))))
      ∧ (inEntry → s.slc.parked ≠ none →
        exec (.queryBay tag p) s = .next (u.answer 0x0C tag .busy .none))
      ∧ (inEntry → s.slc.parked = none → ∃ t, exec (.queryBay tag p) s = .next t
        ∧ t.slc.parked = some (.query tag b) ∧ t.slc.answers = s.slc.answers
        ∧ t.clb.entries = s.clb.entries.map (fun e => { e with queryMark := true })
        ∧ t.clb.markCount = s.clb.entries.length
        ∧ t.bays = s.bays ∧ t.exchanges = s.exchanges ∧ t.atu = s.atu)))
  ∧ (∀ (s : State) (b : BayId),
    let y := s.bay b
    let r := s.bayReport b
    (r.bay = b ∧ r.seat = y.seat ∧ r.seating = y.seating ∧ r.power = y.power ∧ r.variant = y.variant
      ∧ r.bootTime = y.bootTime)
    ∧ (r.link = y.link ∧ r.token = y.token ∧ r.stray = y.line.stray ∧ r.garbage = y.line.garbage)
    ∧ ((y.flight = .empty → r.flight = .empty) ∧ (∀ st, y.flight = .step st → r.flight = .step st.tag)
      ∧ (∀ t, y.flight = .held t → r.flight = .held t))
    ∧ (∀ i : Nat, i < 4 → r.places[i]? = some (match y.places[i]? with
        | some (.step st) => .step st.tag
        | some (.held t) => .held t
        | none => .empty))
    ∧ (y.places.length ≤ 4 → r.places.length = 4)
    ∧ r.heldResults = (if y.flight.isStep = false ∧ y.flight ≠ .empty then 1 else 0)
        + (y.places.filter fun p => !p.isStep).length
    ∧ ((r.calibrating = true ↔ y.mu.sampling = .calibrating) ∧ r.lowOffset = y.mu.lowOffset
      ∧ r.highOffset = y.mu.highOffset ∧ r.range = y.mu.range ∧ r.rangeMode = y.params.rangeMode)
    ∧ (r.monitorState = y.mu.monitorState ∧ r.outOfBand = y.mu.outOfBand
      ∧ r.monitorCount = y.params.monitorCount ∧ r.lastSummary = y.mu.lastSummary)
    ∧ r.flags = [AttClass.seated, .unseated, .ready, .bootTimeout, .trip, .reboot, .phoneEvent, .band,
        .calibrated].map (fun c => { state := (s.flag b c).state, count := (s.flag b c).count,
                                     seating := (s.flag b c).seating, data := (s.flag b c).data })
    ∧ r.logDropped = s.atu.dropped.get b
    ∧ r.results = ((s.clb.hold.filter fun q => decide (q.bay = b)).map fun q =>
          { tag := q.tag, kind := q.kind, outcome := q.outcome, inEntry := false })
        ++ (s.clb.entries.filter fun e => decide (e.board = boardOf b)).filterMap fun e =>
          (e.slots.get (slotOf b)).map fun q =>
            { tag := q.tag, kind := q.kind, outcome := q.outcome, inEntry := true })

/-! ## Attention flags and the log (chapter 9) -/

/-- A raise taken for a raised flag leaves its state, raise position and queued mark; its count goes up by
one and holds at 255, its seating number and class data are the raise's; no notice entry is made and no
other flag changes (R149). -/
def Obligations.RepeatedRaiseIsCounted : Prop :=
  ∀ (b : BayId) (c : AttClass) (d : ClassData) (s : State), (s.flag b c).state ≠ .clear →
    let t := s.raiseFlag b c d
    t.flag b c = { s.flag b c with
        count := min 255 ((s.flag b c).count + 1), seating := (s.bay b).seating, data := d }
    ∧ t.atu.queue = s.atu.queue
    ∧ (∀ b' c', (b', c') ≠ (b, c) → t.flag b' c' = s.flag b' c')
    ∧ t = { s with atu := { s.atu with flags := t.atu.flags } }

/-- A raise taken for a CLEAR flag makes it RAISED with count 0 and the next raise position; where its
class's level is at least the threshold, and so at least 1, it is queued, behind every entry of a
higher level and of its own level raised earlier, in a queue otherwise in its old order (R148, R150).
The premises on the queue there are StepKeepsNoticesLegal's. That raise positions are numbers that go
up by one at each such raise is the model's choice (log entry 8). -/
def Obligations.FreshRaiseIsQueuedIfItQualifies : Prop :=
  ∀ (b : BayId) (c : AttClass) (d : ClassData) (s : State), (s.flag b c).state = .clear →
    let t := s.raiseFlag b c d
    let q : Prop := 1 ≤ s.level c ∧ s.atu.threshold ≤ s.level c
    (q → (t.flag b c).queued = true) ∧ (¬q → (t.flag b c).queued = false)
    ∧ t.flag b c = {
        state := .raised, count := 0, seating := (s.bay b).seating, data := d,
        position := s.atu.nextPosition, queued := (t.flag b c).queued }
    ∧ t.atu.nextPosition = s.atu.nextPosition + 1
    ∧ (¬q → t.atu.queue = s.atu.queue)
    ∧ (q → (b, c) ∉ s.atu.queue →
        (∀ x ∈ s.atu.queue, (s.flag x.1 x.2).position < s.atu.nextPosition) →
        (s.atu.queue.Pairwise fun x y => s.level y.2 ≤ s.level x.2) →
        t.atu.queue = (s.atu.queue.filter fun x => decide (s.level c ≤ s.level x.2)) ++ [(b, c)]
          ++ s.atu.queue.filter fun x => decide (s.level x.2 < s.level c))
    ∧ (∀ b' c', (b', c') ≠ (b, c) → t.flag b' c' = s.flag b' c')
    ∧ t = { s with atu := { s.atu with
        flags := t.atu.flags, queue := t.atu.queue, nextPosition := t.atu.nextPosition } }

/-- ACK_ATTENTION taken: at each accepted bay a named raised flag is cleared and leaves the queue unless
its standing condition holds, TRIP's while the bay is TRIPPED and BAND's while the count equals
monitor_count; a flag so held keeps everything and is listed, in bay and class order; every other flag
stays as it is, and the queue keeps its order (R150, R153, R154, Table 9.4). -/
def Obligations.AckClearsAllButHeldFlags : Prop :=
  ∀ (tag : Tag) (p : List Byte) (s : State) (r : AckRequest) (S : BaySet),
    Arrives s p → tag ≠ 0 → readAck p = some r → r.meaningful = true →
    s.resolve r.target = .ok S →
    let v := verdictsOf S fun b => if s.stale r.target.pins b then some .stale else none
    let named : BayId → AttClass → Prop := fun b c =>
      inSet v.accepted b = true ∧ r.classes.getLsbD c.code.val = true
    let stands : BayId → AttClass → Prop := fun b c =>
      (c = .trip ∧ (s.bay b).power = .tripped)
      ∨ (c = .band ∧ (s.bay b).mu.outOfBand = (s.bay b).params.monitorCount)
    ∃ t held, exec (.ackAttention tag p) s = .next t
      ∧ Answered s t { tag := tag, kind := 0x0D, status := v.status, content := .acknowledged v held }
      ∧ (∀ b c, (b, c) ∈ held ↔ named b c ∧ (s.flag b c).state ≠ .clear ∧ stands b c)
      ∧ (held.map fun x => 9 * x.1.val + x.2.code.val).Pairwise (· < ·)
      ∧ (∀ b c, t.flag b c = s.flag b c ∨ t.flag b c = Flag.cleared)
      ∧ (∀ b c, named b c → (s.flag b c).state ≠ .clear → ¬stands b c →
          t.flag b c = Flag.cleared ∧ (b, c) ∉ t.atu.queue)
      ∧ (∀ b c, ¬named b c ∨ stands b c ∨ (s.flag b c).state = .clear → t.flag b c = s.flag b c
          ∧ ((b, c) ∈ t.atu.queue ↔ (b, c) ∈ s.atu.queue))
      ∧ t.atu.queue.Sublist s.atu.queue
      ∧ t.bays = s.bays ∧ t.atu.ring = s.atu.ring ∧ t.atu.levels = s.atu.levels
      ∧ t.exchanges = s.exchanges ∧ t.clb = s.clb ∧ t.groups = s.groups

/-- An attention notice: the taking of the queue's head, with no answer and, below level 3, no batch
offered ahead of it, makes its flag NOTIFYING and unqueued and puts its content on the wire; nothing is
taken while the transmitter is BUSY, while an answer stands or, below level 3, a batch is offered ahead
of it, or while the queue is empty. The end of its transmission makes the flag NOTIFIED if it is still
NOTIFYING, and leaves it otherwise (R151, R171, R172). That a taking held back so changes nothing is read
by inference (log entry 9). -/
def Obligations.NoticesNotifyTheirFlags : Prop :=
  (∀ (s : State) (b : BayId) (c : AttClass) (rest : List (BayId × AttClass)),
    s.slc.transmitter = none → s.slc.answers = [] → s.atu.queue = (b, c) :: rest →
    1 ≤ s.level c → s.level c ≤ 3 → (s.clb.offer = true → s.level c = 3) →
    ∃ t, exec .takeAttentionNotice s = .next t
      ∧ t.flag b c = { s.flag b c with state := .notifying, queued := false }
      ∧ t.atu.queue = rest
      ∧ (∀ b' c', (b', c') ≠ (b, c) → t.flag b' c' = s.flag b' c')
      ∧ t.slc = { s.slc with transmitter := some {
            bytes := frameOf (bodyOf 0x82 0
              (attentionPayload b c (s.level c) (s.flag b c)) ++ t.trailer),
            source := .attention b c, discarding := false } }
      ∧ t.bays = s.bays ∧ t.exchanges = s.exchanges ∧ t.clb = s.clb ∧ t.groups = s.groups)
  ∧ (∀ s : State,
    (s.slc.transmitter ≠ none ∨ s.slc.answers ≠ [] ∨ s.atu.queue = []
      ∨ (s.clb.offer = true ∧ ∃ q rest, s.atu.queue = q :: rest ∧ s.level q.2 ≠ 3)) →
    exec .takeAttentionNotice s = .next s)
  ∧ (∀ (s : State) (f : Transmission) (b : BayId) (c : AttClass),
    s.slc.transmitter = some f → f.source = .attention b c →
    ∃ t, exec .attentionEndOfTransmission s = .next t
      ∧ t.slc = { s.slc with transmitter := none }
      ∧ t.flag b c = (if (s.flag b c).state = .notifying then { s.flag b c with state := .notified }
          else s.flag b c)
      ∧ (∀ b' c', (b', c') ≠ (b, c) → t.flag b' c' = s.flag b' c')
      ∧ t.atu.queue = s.atu.queue ∧ t.bays = s.bays ∧ t.exchanges = s.exchanges ∧ t.clb = s.clb)

/-! ## The station link (chapter 10) -/

/-- Answers and log lines on the wire: a queued answer is taken first of all sources, whatever the others
offer, leaves its place and is sent with its tag; a log line is taken only when no other source has a
frame, carries its bay's dropped count and sets it to 0; nothing is taken while the transmitter is BUSY,
no answer while none is queued, and no log line while an answer, a batch or a notice of level 1 to 3
stands ahead of it (TakingFixesTheBatch and NoticesNotifyTheirFlags say the same of the sources between).
Their end of transmission frees the transmitter and changes nothing else (R158, R168, R171, R172). That a
taking held back so changes nothing, and that the end of transmission taken with neither an answer nor a
log line on the wire does nothing, is read by inference (log entry 9). Every step keeps the claimed
places of the answer queue at most four, the lines of the log ring at most 64 and the frames-dropped
count at most 255 (R157, R164, R166). -/
def Obligations.AnswersFirstAndLogLast : Prop :=
  (∀ (s : State) (a : Answer) (rest : List Answer),
    s.slc.transmitter = none → s.slc.answers = a :: rest →
    exec .takeAnswer s = .next { s with slc := { s.slc with
      answers := rest
      transmitter := some {
        bytes := frameOf (bodyOf 0x80 a.tag ([a.kind, a.status.code] ++ a.content.bytes) ++ s.trailer)
        source := .answer, discarding := false } } })
  ∧ (∀ s : State, s.slc.transmitter ≠ none ∨ s.slc.answers = [] → exec .takeAnswer s = .next s)
  ∧ (∀ (s : State) (l : LogLine) (rest : List LogLine),
    s.slc.transmitter = none → s.slc.answers = [] → s.atu.queue = [] → s.clb.offer = false →
    s.atu.ring = l :: rest →
    ∃ t, exec .takeLogLine s = .next t
      ∧ t.atu.ring = rest
      ∧ (∀ b, t.atu.dropped.get b = if b = l.bay then 0 else s.atu.dropped.get b)
      ∧ t.slc = { s.slc with transmitter := some {
            bytes := frameOf (bodyOf 0x83 0 (l.payload (s.atu.dropped.get l.bay)) ++ t.trailer),
            source := .log, discarding := false } }
      ∧ t.atu.flags = s.atu.flags ∧ t.atu.queue = s.atu.queue ∧ t.bays = s.bays
      ∧ t.exchanges = s.exchanges ∧ t.clb = s.clb)
  ∧ (∀ s : State,
    (s.slc.transmitter ≠ none ∨ s.slc.answers ≠ [] ∨ s.clb.offer = true
      ∨ (∃ q rest, s.atu.queue = q :: rest ∧ 1 ≤ s.level q.2 ∧ s.level q.2 ≤ 3)
      ∨ s.atu.ring = []) →
    exec .takeLogLine s = .next s)
  ∧ (∀ (s : State) (f : Transmission),
    s.slc.transmitter = some f → f.source = .answer ∨ f.source = .log →
    exec .frameEndOfTransmission s = .next { s with slc := { s.slc with transmitter := none } })
  ∧ (∀ s : State,
    (∀ f, s.slc.transmitter = some f → f.source ≠ .answer ∧ f.source ≠ .log) →
    exec .frameEndOfTransmission s = .next s)
  ∧ (∀ s t : State, s.LinkBounds → step s = .next t → t.LinkBounds)

/-- The Station Link Controller's checks of every request: a payload inconsistent with its layout is
answered BAD_FORMAT, tag 0 BAD_TAG, a code or bit without meaning BAD_FORMAT, in that order, and a kind
that is no request kind UNKNOWN_KIND whatever follows it; nothing but the answer is changed (R167,
R179, R180). That a DROP_GROUPS without the group number's byte is inconsistent in every mode is read
from Table 11.5 (log entry 27). -/
def Obligations.RequestChecksInOrder : Prop :=
  ∀ (s : State) (tag : Tag) (p : List Byte), Arrives s p →
    let u := atTaking s
    (∀ (kind : Byte) (c : Instr) (read meant : Bool),
      (kind, c, read, meant) ∈ [
        ((0x01 : Byte), Instr.identify tag p, (readEmpty p).isSome, true),
        (0x02, .configureStation tag p, (readStationSettings p).isSome,
          (readStationSettings p).any StationSettings.meaningful),
        (0x03, .configureBay tag p, (readConfigureBay p).isSome,
          (readConfigureBay p).any ConfigureBayRequest.meaningful),
        (0x04, .defineGroup tag p, (readDefineGroup p).isSome, true),
        (0x05, .dropGroups tag p, (readDropGroups p).isSome,
          (readDropGroups p).any DropGroupsRequest.meaningful),
        (0x06, .powerOn tag p, (readPowerOn p).isSome,
          (readPowerOn p).any PowerOnRequest.meaningful),
        (0x07, .powerOff tag p, (readTargetOnly p).isSome, (readTargetOnly p).any Target.meaningful),
        (0x08, .zero tag p, (readTargetOnly p).isSome, (readTargetOnly p).any Target.meaningful),
        (0x09, .send tag p, (readSend p).isSome, (readSend p).any SendRequest.meaningful),
        (0x0A, .cancel tag p, (readEmpty p).isSome, true),
        (0x0B, .sync tag p, (readEmpty p).isSome, true),
        (0x0C, .queryBay tag p, (readQuery p).isSome, true),
        (0x0D, .ackAttention tag p, (readAck p).isSome, (readAck p).any AckRequest.meaningful),
        (0x0E, .resetStation tag p, (readEmpty p).isSome, true)] →
      (read = false → exec c s = .next (u.answer kind tag .badFormat .none))
      ∧ (read = true → tag = 0 → exec c s = .next (u.answer kind tag .badTag .none))
      ∧ (read = true → tag ≠ 0 → meant = false →
          exec c s = .next (u.answer kind tag .badFormat .none)))
    ∧ (∀ kind : Byte, kind.toNat = 0 ∨ 14 < kind.toNat →
      exec (.unknownKindRequest kind tag p) s = .next (u.answer kind tag .unknownKind .none))

/-- IDENTIFY is answered OK with vendor 0x56B1, part 0x6024, revision 1, the latched bay count, 4 places,
32 records, 8 entries, 16 groups, 64 log lines and 120 text bytes, and changes nothing else (R173,
Table 10.6). -/
def Obligations.IdentifyTellsThePart : Prop :=
  ∀ (tag : Tag) (s : State), Arrives s [] → tag ≠ 0 →
    exec (.identify tag []) s = .next ((atTaking s).answer 0x01 tag .ok (.identity s.bayCount))
    ∧ Content.bytes (.identity s.bayCount)
        = [0xB1, 0x56, 0x24, 0x60, 1, BitVec.ofNat 8 s.bayCount, 4, 32, 8, 16, 64, 120]

/-- CONFIGURE_STATION taken: each present value is clamped to its range and applied, an absent one kept;
the answer carries all of them as now in force; with the threshold or the levels present every RAISED
flag is queued exactly when it qualifies, and nothing else of a flag changes (R152, R174). -/
def Obligations.ConfigureStationClampsAndApplies : Prop :=
  ∀ (tag : Tag) (p : List Byte) (s : State) (r : StationSettings),
    Arrives s p → tag ≠ 0 → readStationSettings p = some r → r.meaningful = true →
    ∃ t, exec (.configureStation tag p) s = .next t
      ∧ t.atu.threshold = (match r.threshold with
          | none => s.atu.threshold
          | some x => max 1 (min 4 x))
      ∧ (∀ i : Fin 9, t.atu.levels.get i = (match r.levels with
          | none => s.atu.levels.get i
          | some ls => min 3 (ls.getD i.val 0)))
      ∧ t.clb.pressure = (match r.pressure with
          | none => s.clb.pressure
          | some x => max 2 (min 8 x))
      ∧ t.clb.holdMs = (match r.holdMs with
          | none => s.clb.holdMs
          | some x => max 1 (min 5000 x))
      ∧ t.seatDebounceMs = (match r.seatDebounceMs with
          | none => s.seatDebounceMs
          | some x => max 20 (min 2000 x))
      ∧ Answered s t {
          tag := tag, kind := 0x02, status := .ok,
          content := .station {
            threshold := t.atu.threshold, levels := t.atu.levels, pressure := t.clb.pressure,
            holdMs := t.clb.holdMs, seatDebounceMs := t.seatDebounceMs } }
      ∧ (∀ b c, t.flag b c = { s.flag b c with queued := (t.flag b c).queued })
      ∧ ((r.threshold.isSome = true ∨ r.levels.isSome = true) → ∀ b c,
          (s.flag b c).state = .raised →
          ((t.flag b c).queued = true ↔ 1 ≤ t.level c ∧ t.atu.threshold ≤ t.level c)
          ∧ ((b, c) ∈ t.atu.queue ↔ 1 ≤ t.level c ∧ t.atu.threshold ≤ t.level c))
      ∧ ((r.threshold.isSome = true ∨ r.levels.isSome = true) →
          t.atu.queue.Pairwise fun x y => t.level y.2 < t.level x.2
            ∨ (t.level x.2 = t.level y.2
              ∧ (s.flag x.1 x.2).position ≤ (s.flag y.1 y.2).position))
      ∧ t.bays = s.bays ∧ t.exchanges = s.exchanges ∧ t.groups = s.groups
      ∧ t.clb.entries = s.clb.entries ∧ t.clb.hold = s.clb.hold ∧ t.atu.ring = s.atu.ring

/-- RESET_STATION answers a parked request RESET, resets every block, keeps the queued answers and the
frame in transmission, and queues its own answer last. A USB bus reset or detach resets every block,
discards the receiver's frame, every answer and the parked request, and lets a frame in transmission run
out at the port; either sets the line rates in use and the pending ones from link_rate (R69, R176, R177).
Three points are the model's: the request row leaves the receiver in HUNT (log entry 11), the pending
rates stand after the reset and are not applied and cleared at it (log entry 5), and a frame in
transmission is kept with a mark that the port discards it (log entry 20). -/
def Obligations.StationAndUsbResets : Prop :=
  (∀ (tag : Tag) (s : State), Arrives s [] → tag ≠ 0 →
      ∃ t, exec (.resetStation tag []) s = .next t ∧ StationWasReset s t
        ∧ t.slc = { s.slc with
            framesDropped := 0, receiver := .hunting, parked := none,
            answers := s.slc.answers
              ++ (match s.slc.parked with
                  | none => []
                  | some (.sync k) => [{ tag := k, kind := 0x0B, status := .reset, content := .none }]
                  | some (.query k _) =>
                    [{ tag := k, kind := 0x0C, status := .reset, content := .none }])
              ++ [{ tag := tag, kind := 0x0E, status := .ok, content := .none }] })
  ∧ (∀ s : State, ∃ t, exec .usbBusReset s = .next t ∧ StationWasReset s t
      ∧ t.slc.receiver = .hunting ∧ t.slc.framesDropped = 0 ∧ t.slc.answers = []
      ∧ t.slc.parked = none
      ∧ t.slc.transmitter = s.slc.transmitter.map (fun f => { f with discarding := true }))

/-- Power-on reset latches the bay count from the straps, a board 2 strap counting only beside a board 1
strap, and gives every block its power-on values: bays VACANT, NONE, DOWN with token 00, offsets 0 and
range HIGH; the parameters of Table 6.6, with the line rates in use and pending set from link_rate; batch
parameters 3 and 25, threshold 4, levels of Table 9.1, empty table, buffer, queue, ring and groups. A
present bay whose sensor is closed takes one sensor closes event (R21, R69, R178). The manual gives no
such value for some of what a whole bay and a whole unit hold, where the model's stands: the sensor pins
outlast the reset (log entry 4), the set points of a supply (log entry 6), the counter of raise positions
(log entry 8) and the queue of waiting commands, which is kept (log entry 3); that the pending rates
stand after the reset and are not applied and cleared at it is read by inference (log entry 5). -/
def Obligations.PowerOnResetLeavesTheResetValues : Prop :=
  (∀ (p q : Bool) (s : State),
      let count := if p = true ∧ q = true then 24 else if p = true then 16 else 8
      ∃ t, exec (.powerOnReset p q) s = .next t
        ∧ t.bayCount = count ∧ t.seatDebounceMs = 200
        ∧ t.groups = State.reset.groups ∧ t.exchanges = [] ∧ t.clb = State.reset.clb
        ∧ t.atu = State.reset.atu ∧ t.slc = State.reset.slc ∧ t.pending = s.pending
        ∧ ∀ b, (((s.bay b).sensorClosed = true ∧ b.val < count →
              t.bay b = { Bay.reset with
                sensorClosed := true, seat := .seating, debounce := started 200 })
            ∧ (¬((s.bay b).sensorClosed = true ∧ b.val < count) →
              t.bay b = { Bay.reset with sensorClosed := (s.bay b).sensorClosed })))
  ∧ (∀ b, (State.reset.bay b).seat = .vacant ∧ (State.reset.bay b).seating = 0
    ∧ (State.reset.bay b).power = .none ∧ (State.reset.bay b).link = .down
    ∧ (State.reset.bay b).token = 0 ∧ (State.reset.bay b).supply.on = false
    ∧ (State.reset.bay b).variant = .plain ∧ (State.reset.bay b).bootTime = 0
    ∧ (State.reset.bay b).mu.lowOffset = 0 ∧ (State.reset.bay b).mu.highOffset = 0
    ∧ (State.reset.bay b).mu.range = .high ∧ (State.reset.bay b).mu.lastSummary = none
    ∧ (State.reset.bay b).places = [] ∧ (State.reset.bay b).flight = .empty
    ∧ (State.reset.bay b).params.supplyMv = 3850 ∧ (State.reset.bay b).params.limitMa = 3000
    ∧ (State.reset.bay b).params.brownoutMv = 3300 ∧ (State.reset.bay b).params.tripMs = 20
    ∧ (State.reset.bay b).params.keyMs = 1200 ∧ (State.reset.bay b).params.bootDeadlineMs = 45000
    ∧ (State.reset.bay b).params.replyDeadlineMs = 2000 ∧ (State.reset.bay b).params.extendLimit = 3
    ∧ (State.reset.bay b).params.settleMs = 50 ∧ (State.reset.bay b).params.monitorWindow = 1000
    ∧ (State.reset.bay b).params.monitorCount = 4 ∧ (State.reset.bay b).params.monitorOn = false
    ∧ (State.reset.bay b).params.linkRate = .r115200 ∧ (State.reset.bay b).params.rangeMode = .auto
    ∧ (State.reset.bay b).params.settleOnChanges = true ∧ (State.reset.bay b).params.monitorLo = 0
    ∧ (State.reset.bay b).params.monitorHi = 16383500 ∧ (State.reset.bay b).params.logForward = false
    ∧ (State.reset.bay b).line = lineAfterReset)
  ∧ (∀ n, State.reset.group n = Group.undefined) ∧ State.reset.exchanges = []
  ∧ State.reset.clb.entries = [] ∧ State.reset.clb.hold = [] ∧ State.reset.clb.offer = false
  ∧ State.reset.clb.markCount = 0 ∧ State.reset.clb.pressure = 3 ∧ State.reset.clb.holdMs = 25
  ∧ State.reset.atu.levels.toList = [1, 2, 2, 3, 3, 3, 1, 2, 1] ∧ State.reset.atu.threshold = 4
  ∧ (∀ b c, State.reset.flag b c = Flag.cleared) ∧ State.reset.atu.queue = []
  ∧ State.reset.atu.ring = [] ∧ (∀ b, State.reset.atu.dropped.get b = 0)
  ∧ State.reset.slc.receiver.state = .hunt ∧ State.reset.slc.receiver.held = false
  ∧ State.reset.slc.framesDropped = 0 ∧ State.reset.slc.answers = []
  ∧ State.reset.slc.parked = none ∧ State.reset.slc.transmitter = none

/-- A byte taken in HUNT begins a frame when it is 0xC3 and is discarded uncounted otherwise; while a
frame is held no byte is read. A discarded frame is counted, holding at 255, and answered by nothing:
for its check or for the gap timer the receiver returns to HUNT; for a length below 3 or above 512 its
two length bytes are rescanned from the first (R163 to R166). -/
def Obligations.ReceiverHuntsAndDiscards : Prop :=
  (∀ (s : State) (x : Byte),
      (s.slc.receiver = .hunting → exec (.byteTakenFromPipe x) s
        = .next { s with slc := { s.slc with receiver :=
            if x = 0xC3 then { Receiver.hunting with state := .length, gap := started 20 }
            else .hunting } })
      ∧ (s.slc.receiver.held = true → exec (.byteTakenFromPipe x) s = .next s))
  ∧ (∀ s : State,
      let after : Receiver → State := fun r => { s with slc := { s.slc with
        framesDropped := min 255 (s.slc.framesDropped + 1), receiver := r } }
      (s.slc.receiver.held = false →
        exec (.frameDiscarded .checkMismatch) s = .next (after .hunting)
        ∧ ∀ l0 l1 : Byte, (l0.toNat + 256 * l1.toNat < 3 ∨ 512 < l0.toNat + 256 * l1.toNat) →
            exec (.frameDiscarded (.lengthOutOfRange l0 l1)) s = .next (after (
              if l0 = 0xC3 then { Receiver.hunting with
                state := .length, lengthBytes := [l1], gap := started 20 }
              else if l1 = 0xC3 then { Receiver.hunting with state := .length, gap := started 20 }
              else .hunting)))
      ∧ (s.slc.receiver.gap.isSome = true → exec .gapTimerExpiry s = .next (after .hunting)))

/-- A whole good frame received byte by byte: from HUNT, the sync byte, the length, a body of 3 to 512
bytes and its check do what the taking of the body does at a state whose frames-dropped count is 0 and
whose receiver is in HUNT, where a place is free; with none free the frame is held. Once a place is
free the held frame is taken and the receiver is in HUNT, and until then it waits. The taking of a body
is the taking of the request that its kind, its tag and its payload make: for each request kind what
the command of that kind does, and UNKNOWN_KIND for every other; and every body of 3 bytes or more has
these three parts (R161 to R167, Table 11.2). That a request row is such a frame arriving whole is the
model's (log entry 11). -/
def Obligations.GoodFrameIsTakenWhole : Prop :=
  (∀ (s : State) (body : List Byte), s.slc.receiver = .hunting →
      3 ≤ body.length → body.length ≤ 512 →
      (s.slc.claimed < 4 →
        run ((frameOf body).map Instr.byteTakenFromPipe) s
          = .next (State.takeBody body { s with slc := { s.slc with
              framesDropped := 0, receiver := .hunting } }))
      ∧ (4 ≤ s.slc.claimed →
        run ((frameOf body).map Instr.byteTakenFromPipe) s
          = .next { s with slc := { s.slc with
              framesDropped := 0, receiver := Receiver.holding body } }))
  ∧ (∀ (s : State) (body : List Byte), s.slc.receiver = Receiver.holding body →
      (s.slc.claimed < 4 → exec .heldFrameTaken s
        = .next (State.takeBody body { s with slc := { s.slc with receiver := .hunting } }))
      ∧ (4 ≤ s.slc.claimed → exec .heldFrameTaken s = .next s))
  ∧ (∀ (s : State) (tag : Tag) (p : List Byte), Arrives s p →
      (∀ (kind : Byte) (c : Instr), (kind, c) ∈ [
          ((0x01 : Byte), Instr.identify tag p), (0x02, .configureStation tag p),
          (0x03, .configureBay tag p), (0x04, .defineGroup tag p), (0x05, .dropGroups tag p),
          (0x06, .powerOn tag p), (0x07, .powerOff tag p), (0x08, .zero tag p), (0x09, .send tag p),
          (0x0A, .cancel tag p), (0x0B, .sync tag p), (0x0C, .queryBay tag p),
          (0x0D, .ackAttention tag p), (0x0E, .resetStation tag p)] →
        exec c s = .next (State.takeBody (bodyOf kind tag p) (atTaking s)))
      ∧ (∀ kind : Byte, kind.toNat = 0 ∨ 14 < kind.toNat →
        State.takeBody (bodyOf kind tag p) (atTaking s)
          = (atTaking s).answer kind tag .unknownKind .none))
  ∧ (∀ body : List Byte, 3 ≤ body.length → ∃ kind tag p, body = bodyOf kind tag p)
end

