-- ==== Sys2Proof/Laws/State.lean ====
section
/-! SUPPORT. Laws/State.lean: for each update of the state, what it does to each field and to each bay. -/

namespace Sys2Proof.Machine

variable {s : State} {b b' : BayId} {y : Bay} {f : Bay → Bay}

/-! ## setBay -/

@[simp] theorem setBay_bay_same : (s.setBay b y).bay b = y := by
  simp [State.setBay, State.bay, Vector.get_eq_getElem]

theorem setBay_bay_other (h : b' ≠ b) : (s.setBay b y).bay b' = s.bay b' := by
  have : b.val ≠ b'.val := fun e => h (Fin.ext e.symm)
  simp [State.setBay, State.bay, Vector.get_eq_getElem, this]

theorem setBay_bay : (s.setBay b y).bay b' = if b' = b then y else s.bay b' := by
  split
  · next h => subst h; exact setBay_bay_same
  · next h => exact setBay_bay_other h

@[simp] theorem setBay_bayCount : (s.setBay b y).bayCount = s.bayCount := rfl
@[simp] theorem setBay_seatDebounceMs : (s.setBay b y).seatDebounceMs = s.seatDebounceMs := rfl
@[simp] theorem setBay_groups : (s.setBay b y).groups = s.groups := rfl
@[simp] theorem setBay_exchanges : (s.setBay b y).exchanges = s.exchanges := rfl
@[simp] theorem setBay_clb : (s.setBay b y).clb = s.clb := rfl
@[simp] theorem setBay_atu : (s.setBay b y).atu = s.atu := rfl
@[simp] theorem setBay_slc : (s.setBay b y).slc = s.slc := rfl
@[simp] theorem setBay_pending : (s.setBay b y).pending = s.pending := rfl

/-! ## modBay -/

@[simp] theorem modBay_bay_same : (s.modBay b f).bay b = f (s.bay b) := setBay_bay_same

theorem modBay_bay_other (h : b' ≠ b) : (s.modBay b f).bay b' = s.bay b' := setBay_bay_other h

theorem modBay_bay : (s.modBay b f).bay b' = if b' = b then f (s.bay b) else s.bay b' := setBay_bay

@[simp] theorem modBay_bayCount : (s.modBay b f).bayCount = s.bayCount := rfl
@[simp] theorem modBay_seatDebounceMs : (s.modBay b f).seatDebounceMs = s.seatDebounceMs := rfl
@[simp] theorem modBay_groups : (s.modBay b f).groups = s.groups := rfl
@[simp] theorem modBay_exchanges : (s.modBay b f).exchanges = s.exchanges := rfl
@[simp] theorem modBay_clb : (s.modBay b f).clb = s.clb := rfl
@[simp] theorem modBay_atu : (s.modBay b f).atu = s.atu := rfl
@[simp] theorem modBay_slc : (s.modBay b f).slc = s.slc := rfl
@[simp] theorem modBay_pending : (s.modBay b f).pending = s.pending := rfl

/-! ## mapBays -/

@[simp] theorem mapBays_bay (g : BayId → Bay → Bay) : (s.mapBays g).bay b = g b (s.bay b) := by
  simp [State.mapBays, State.bay, Vector.get_eq_getElem]

@[simp] theorem mapBays_bayCount (g : BayId → Bay → Bay) : (s.mapBays g).bayCount = s.bayCount := by simp [State.mapBays]
@[simp] theorem mapBays_groups (g : BayId → Bay → Bay) : (s.mapBays g).groups = s.groups := by simp [State.mapBays]
@[simp] theorem mapBays_exchanges (g : BayId → Bay → Bay) :
    (s.mapBays g).exchanges = s.exchanges := by simp [State.mapBays]
@[simp] theorem mapBays_clb (g : BayId → Bay → Bay) : (s.mapBays g).clb = s.clb := by simp [State.mapBays]
@[simp] theorem mapBays_atu (g : BayId → Bay → Bay) : (s.mapBays g).atu = s.atu := by simp [State.mapBays]
@[simp] theorem mapBays_slc (g : BayId → Bay → Bay) : (s.mapBays g).slc = s.slc := by simp [State.mapBays]
@[simp] theorem mapBays_pending (g : BayId → Bay → Bay) : (s.mapBays g).pending = s.pending := by simp [State.mapBays]
@[simp] theorem mapBays_seatDebounceMs (g : BayId → Bay → Bay) :
    (s.mapBays g).seatDebounceMs = s.seatDebounceMs := by simp [State.mapBays]

/-- Two states with the same bays and the same other fields are equal. -/
theorem state_ext_bays {t : State} (hb : ∀ b, s.bay b = t.bay b) (h1 : s.bayCount = t.bayCount)
    (h2 : s.seatDebounceMs = t.seatDebounceMs) (h3 : s.groups = t.groups)
    (h4 : s.exchanges = t.exchanges) (h5 : s.clb = t.clb) (h6 : s.atu = t.atu)
    (h7 : s.slc = t.slc) (h8 : s.pending = t.pending) : s = t := by
  have hv : s.bays = t.bays := by
    apply Vector.ext
    intro i hi
    exact hb ⟨i, hi⟩
  cases s; cases t; simp_all

theorem modBay_eq : s.modBay b f = s.setBay b (f (s.bay b)) := rfl

@[simp] theorem setBay_self : s.setBay b (s.bay b) = s := by
  apply state_ext_bays <;> try rfl
  intro b'
  rw [setBay_bay]
  split <;> simp_all

@[simp] theorem setBay_setBay {z : Bay} : (s.setBay b y).setBay b z = s.setBay b z := by
  apply state_ext_bays <;> try rfl
  intro b'
  simp only [setBay_bay]
  split <;> simp_all

@[simp] theorem modBay_modBay {g : Bay → Bay} :
    (s.modBay b f).modBay b g = s.modBay b fun y => g (f y) := by
  simp [modBay_eq]

/-! ## answer -/

variable {kind : Byte} {tag : Tag} {status : Status} {content : Content}

@[simp] theorem answer_bay : (s.answer kind tag status content).bay b = s.bay b := rfl
@[simp] theorem answer_bays : (s.answer kind tag status content).bays = s.bays := rfl
@[simp] theorem answer_bayCount : (s.answer kind tag status content).bayCount = s.bayCount := rfl
@[simp] theorem answer_groups : (s.answer kind tag status content).groups = s.groups := rfl
@[simp] theorem answer_exchanges : (s.answer kind tag status content).exchanges = s.exchanges := rfl
@[simp] theorem answer_clb : (s.answer kind tag status content).clb = s.clb := rfl
@[simp] theorem answer_atu : (s.answer kind tag status content).atu = s.atu := rfl
@[simp] theorem answer_pending : (s.answer kind tag status content).pending = s.pending := rfl
@[simp] theorem answer_seatDebounceMs :
    (s.answer kind tag status content).seatDebounceMs = s.seatDebounceMs := rfl
@[simp] theorem answer_answers : (s.answer kind tag status content).slc.answers
    = s.slc.answers ++ [{ tag := tag, kind := kind, status := status, content := content }] := rfl
@[simp] theorem answer_parked :
    (s.answer kind tag status content).slc.parked = s.slc.parked := rfl
@[simp] theorem answer_receiver :
    (s.answer kind tag status content).slc.receiver = s.slc.receiver := rfl
@[simp] theorem answer_framesDropped :
    (s.answer kind tag status content).slc.framesDropped = s.slc.framesDropped := rfl
@[simp] theorem answer_transmitter :
    (s.answer kind tag status content).slc.transmitter = s.slc.transmitter := rfl

/-! ## withReceiver, discardFrame, transmit -/

@[simp] theorem withReceiver_bays (r : Receiver) : (s.withReceiver r).bays = s.bays := rfl
@[simp] theorem withReceiver_receiver (r : Receiver) : (s.withReceiver r).slc.receiver = r := rfl
@[simp] theorem withReceiver_claimed (r : Receiver) :
    (s.withReceiver r).slc.claimed = s.slc.claimed := rfl
@[simp] theorem withReceiver_again (r r' : Receiver) :
    (s.withReceiver r).withReceiver r' = s.withReceiver r' := rfl
@[simp] theorem discardFrame_receiver (r : Receiver) : (s.discardFrame r).slc.receiver = r := rfl
@[simp] theorem discardFrame_framesDropped (r : Receiver) :
    (s.discardFrame r).slc.framesDropped = saturate 255 s.slc.framesDropped := rfl
@[simp] theorem discardFrame_bays (r : Receiver) : (s.discardFrame r).bays = s.bays := rfl

end Sys2Proof.Machine
end

