-- ==== Sys2Proof/Laws/Ops.lean ====
section
/-! SUPPORT. Laws/Ops.lean: bay sets as the bays they hold, passes over bay sets, and the tick. -/

namespace Sys2Proof.Machine

/-! ## Bay sets -/

theorem mem_allBays (b : BayId) : b ∈ allBays := List.mem_finRange b

theorem inSet_onlyBay (b b' : BayId) : inSet (onlyBay b') b = decide (b = b') := by
  simp only [inSet, onlyBay, BitVec.getLsbD_twoPow]
  have := b'.isLt
  by_cases h : b = b'
  · subst h; simp
  · have : ¬ b'.val = b.val := fun e => h (Fin.ext e.symm)
    simp [h, this]

@[simp] theorem inSet_withBay (S : BaySet) (b b' : BayId) :
    inSet (withBay S b') b = (inSet S b || decide (b = b')) := by
  have h := inSet_onlyBay b b'
  simp only [inSet] at h
  rw [withBay, inSet, inSet, BitVec.getLsbD_or, h]

@[simp] theorem inSet_withoutBay (S : BaySet) (b b' : BayId) :
    inSet (withoutBay S b') b = (inSet S b && !decide (b = b')) := by
  have h := inSet_onlyBay b b'
  simp only [inSet] at h
  rw [withoutBay, inSet, inSet, BitVec.getLsbD_and, BitVec.getLsbD_not, h]
  simp [b.isLt]

@[simp] theorem inSet_zero (b : BayId) : inSet 0#24 b = false := by simp [inSet]

theorem inSet_foldl (p : BayId → Bool) (l : List BayId) (S : BaySet) (b : BayId) :
    inSet (l.foldl (fun S b => if p b then withBay S b else S) S) b
      = (inSet S b || (decide (b ∈ l) && p b)) := by
  induction l generalizing S with
  | nil => simp
  | cons a l ih =>
    rw [List.foldl_cons, ih]
    by_cases hb : b = a
    · subst hb; by_cases hp : p b <;> simp [hp]
    · by_cases hp : p a <;> simp [hp, hb]

/-- A set built from a test holds exactly the bays that pass it. -/
@[simp] theorem inSet_setOf (p : BayId → Bool) (b : BayId) : inSet (setOf p) b = p b := by
  simp [setOf, inSet_foldl, mem_allBays]

/-- Bay sets with the same bays are equal. -/
theorem baySet_ext {S T : BaySet} (h : ∀ b, inSet S b = inSet T b) : S = T := by
  apply BitVec.eq_of_getLsbD_eq
  intro i hi
  exact h ⟨i, hi⟩

theorem baySet_eq_zero {S : BaySet} : S = 0 ↔ ∀ b, inSet S b = false :=
  ⟨fun h b => by rw [h]; exact inSet_zero b,
   fun h => baySet_ext fun b => (h b).trans (inSet_zero b).symm⟩

/-- Two bays of one board and one slot are one bay (R126). -/
theorem bay_of_board_slot {b b' : BayId} (h : boardOf b = boardOf b') (h' : slotOf b = slotOf b') :
    b = b' := by
  have h1 : b.val / 8 = b'.val / 8 := congrArg Fin.val h
  have h2 : b.val % 8 = b'.val % 8 := congrArg Fin.val h'
  exact Fin.ext (by omega)

/-! ## Passes over a set -/

/-- What each single action of a pass keeps, the whole pass keeps. -/
theorem forBays_keeps (P : State → Prop) {S : BaySet} {f : BayId → State → State} {s : State}
    (hf : ∀ b s, inSet S b = true → P s → P (f b s)) (h : P s) : P (s.forBays S f) := by
  unfold State.forBays
  generalize allBays = l
  induction l generalizing s with
  | nil => exact h
  | cons b l ih =>
    rw [List.foldl_cons]
    apply ih
    split
    · next hb => exact hf b s hb h
    · exact h

/-! ## The tick -/

@[simp] theorem tick_bay (s : State) (b : BayId) : s.tick.bay b = (s.bay b).tick := by
  have h : s.tick.bays = (s.mapBays fun _ y => y.tick).bays := by simp only [State.tick]
  have h' : s.tick.bay b = (s.mapBays fun _ y => y.tick).bay b := by simp only [State.bay, h]
  rw [h', mapBays_bay]

theorem flight_tick_isStep (f : Flight) : f.tick.isStep = f.isStep := by cases f <;> rfl

end Sys2Proof.Machine
end

