-- ==== Sys2Proof/Laws/Flags.lean ====
section
/-! SUPPORT. Laws/Flags.lean: what raising, clearing and queueing do to the Attention Unit, and that they
touch nothing else. -/

namespace Sys2Proof.Machine

variable {s : State} {b b' : BayId} {c c' : AttClass} {f : Flag} {d : ClassData}

theorem code_injective {c c' : AttClass} (h : c.code = c'.code) : c = c' := by
  cases c <;> cases c' <;> first | rfl | exact absurd h (by decide)

theorem mem_allClasses (c : AttClass) : c ∈ allClasses := by cases c <;> decide

theorem mem_allFlags (b : BayId) (c : AttClass) : (b, c) ∈ allFlags := by
  simp [allFlags, mem_allBays, mem_allClasses]

/-! ## setFlag -/

@[simp] theorem setFlag_flag_same : (s.setFlag b c f).flag b c = f := by
  simp [State.setFlag, State.flag, Vector.get_eq_getElem]

theorem setFlag_flag_other (h : (b', c') ≠ (b, c)) : (s.setFlag b c f).flag b' c' = s.flag b' c' := by
  simp only [State.setFlag, State.flag, Vector.get_eq_getElem]
  by_cases hb : b = b'
  · subst hb
    have hc : c.code.val ≠ c'.code.val := fun e => h (by rw [code_injective (Fin.ext e)])
    simp [hc]
  · have : b.val ≠ b'.val := fun e => hb (Fin.ext e)
    simp [this]

/-- An update confined to the Attention Unit leaves every other field as it was. -/
structure SameBesidesAtu (s t : State) : Prop where
  bayCount       : t.bayCount = s.bayCount
  seatDebounceMs : t.seatDebounceMs = s.seatDebounceMs
  bays           : t.bays = s.bays
  groups         : t.groups = s.groups
  exchanges      : t.exchanges = s.exchanges
  clb            : t.clb = s.clb
  slc            : t.slc = s.slc
  pending        : t.pending = s.pending

theorem SameBesidesAtu.refl (s : State) : SameBesidesAtu s s := ⟨rfl, rfl, rfl, rfl, rfl, rfl, rfl, rfl⟩

theorem SameBesidesAtu.trans {s t u : State} (h : SameBesidesAtu s t) (h' : SameBesidesAtu t u) :
    SameBesidesAtu s u :=
  ⟨h'.1.trans h.1, h'.2.trans h.2, h'.3.trans h.3, h'.4.trans h.4, h'.5.trans h.5, h'.6.trans h.6,
    h'.7.trans h.7, h'.8.trans h.8⟩

theorem SameBesidesAtu.bay {s t : State} (h : SameBesidesAtu s t) (b : BayId) : t.bay b = s.bay b := by
  unfold State.bay
  rw [h.bays]

theorem setFlag_frame : SameBesidesAtu s (s.setFlag b c f) := ⟨rfl, rfl, rfl, rfl, rfl, rfl, rfl, rfl⟩
theorem enqueueNotice_frame : SameBesidesAtu s (s.enqueueNotice b c) :=
  ⟨rfl, rfl, rfl, rfl, rfl, rfl, rfl, rfl⟩
theorem withdrawNotice_frame : SameBesidesAtu s (s.withdrawNotice b c) :=
  ⟨rfl, rfl, rfl, rfl, rfl, rfl, rfl, rfl⟩
theorem clearFlag_frame : SameBesidesAtu s (s.clearFlag b c) := ⟨rfl, rfl, rfl, rfl, rfl, rfl, rfl, rfl⟩
theorem raiseAgain_frame : SameBesidesAtu s (s.raiseAgain b c d) :=
  ⟨rfl, rfl, rfl, rfl, rfl, rfl, rfl, rfl⟩

theorem raiseFresh_frame : SameBesidesAtu s (s.raiseFresh b c d) := by
  simp only [State.raiseFresh]
  split <;> exact ⟨rfl, rfl, rfl, rfl, rfl, rfl, rfl, rfl⟩

/-- A raise touches the Attention Unit alone. -/
theorem raiseFlag_frame : SameBesidesAtu s (s.raiseFlag b c d) := by
  unfold State.raiseFlag
  split
  · exact raiseFresh_frame
  · exact raiseAgain_frame
  · exact raiseAgain_frame
  · exact raiseAgain_frame

@[simp] theorem raiseFlag_bay : (s.raiseFlag b c d).bay b' = s.bay b' := raiseFlag_frame.bay b'
@[simp] theorem raiseFlag_slc : (s.raiseFlag b c d).slc = s.slc := raiseFlag_frame.slc
@[simp] theorem raiseFlag_clb : (s.raiseFlag b c d).clb = s.clb := raiseFlag_frame.clb
@[simp] theorem raiseFlag_exchanges : (s.raiseFlag b c d).exchanges = s.exchanges :=
  raiseFlag_frame.exchanges
@[simp] theorem raiseFlag_groups : (s.raiseFlag b c d).groups = s.groups := raiseFlag_frame.groups
@[simp] theorem raiseFlag_pending : (s.raiseFlag b c d).pending = s.pending := raiseFlag_frame.pending
@[simp] theorem raiseFlag_bayCount : (s.raiseFlag b c d).bayCount = s.bayCount :=
  raiseFlag_frame.bayCount
@[simp] theorem raiseFlag_seatDebounceMs : (s.raiseFlag b c d).seatDebounceMs = s.seatDebounceMs :=
  raiseFlag_frame.seatDebounceMs

/-! ## Flags after a raise (R148, R149) -/

theorem enqueueNotice_flag : (s.enqueueNotice b c).flag b' c' = s.flag b' c' := rfl
theorem withdrawNotice_flag : (s.withdrawNotice b c).flag b' c' = s.flag b' c' := rfl

/-- A raise changes no other flag. -/
theorem raiseFlag_flag_other (h : (b', c') ≠ (b, c)) :
    (s.raiseFlag b c d).flag b' c' = s.flag b' c' := by
  unfold State.raiseFlag
  split
  · simp only [State.raiseFresh]
    split
    · rw [enqueueNotice_flag]; exact setFlag_flag_other h
    · exact setFlag_flag_other h
  · exact setFlag_flag_other h
  · exact setFlag_flag_other h
  · exact setFlag_flag_other h

/-- A raise of a CLEAR flag makes it RAISED, with count 0 and the next raise position (R148). -/
theorem raiseFlag_flag_fresh (h : (s.flag b c).state = .clear) :
    (s.raiseFlag b c d).flag b c
      = { state := .raised, count := 0, seating := (s.bay b).seating, data := d,
          position := s.atu.nextPosition, queued := s.qualifies c } := by
  unfold State.raiseFlag
  simp only [h, State.raiseFresh]
  split
  · rw [enqueueNotice_flag]; exact setFlag_flag_same
  · exact setFlag_flag_same

/-- A raise of a raised flag counts it and replaces its seating number and data (R149). -/
theorem raiseFlag_flag_again (h : (s.flag b c).state ≠ .clear) :
    (s.raiseFlag b c d).flag b c
      = { s.flag b c with
          count := saturate 255 (s.flag b c).count, seating := (s.bay b).seating, data := d } := by
  unfold State.raiseFlag
  split
  · next hc => exact absurd hc h
  · exact setFlag_flag_same
  · exact setFlag_flag_same
  · exact setFlag_flag_same

/-! ## Flags under updates elsewhere -/

theorem flag_of_atu {t : State} (h : t.atu = s.atu) : t.flag b c = s.flag b c := by
  unfold State.flag
  rw [h]

@[simp] theorem setBay_flag {y : Bay} : (s.setBay b' y).flag b c = s.flag b c := rfl
@[simp] theorem modBay_flag {g : Bay → Bay} : (s.modBay b' g).flag b c = s.flag b c := rfl
@[simp] theorem mapBays_flag {g : BayId → Bay → Bay} : (s.mapBays g).flag b c = s.flag b c :=
  flag_of_atu (mapBays_atu g)
@[simp] theorem answer_flag {k : Byte} {t : Tag} {st : Status} {x : Content} :
    (s.answer k t st x).flag b c = s.flag b c := rfl

/-- A raised flag is not CLEAR, and carries the seating number and the class data of its last raise. -/
theorem raiseFlag_raised : ((s.raiseFlag b c d).flag b c).state ≠ .clear
    ∧ ((s.raiseFlag b c d).flag b c).seating = (s.bay b).seating
    ∧ ((s.raiseFlag b c d).flag b c).data = d := by
  by_cases h : (s.flag b c).state = .clear
  · rw [raiseFlag_flag_fresh h]; simp
  · rw [raiseFlag_flag_again h]; simp [h]

/-- A raise leaves the levels, the threshold, the log ring and the dropped counts. -/
theorem raiseFlag_settings : (s.raiseFlag b c d).atu.levels = s.atu.levels
    ∧ (s.raiseFlag b c d).atu.threshold = s.atu.threshold
    ∧ (s.raiseFlag b c d).atu.ring = s.atu.ring
    ∧ (s.raiseFlag b c d).atu.dropped = s.atu.dropped := by
  unfold State.raiseFlag
  split
  · simp only [State.raiseFresh]; split <;> exact ⟨rfl, rfl, rfl, rfl⟩
  all_goals exact ⟨rfl, rfl, rfl, rfl⟩

/-! ## The notice queue -/

theorem mem_insertNotice {x z : BayId × AttClass} {l : List (BayId × AttClass)} :
    z ∈ s.insertNotice x l ↔ z = x ∨ z ∈ l := by
  induction l with
  | nil => simp [State.insertNotice]
  | cons y l ih =>
    unfold State.insertNotice
    split
    · simp
    · rw [List.mem_cons, ih, List.mem_cons]; tauto

theorem nodup_insertNotice {x : BayId × AttClass} {l : List (BayId × AttClass)} (h : l.Nodup)
    (hx : x ∉ l) : (s.insertNotice x l).Nodup := by
  induction l with
  | nil => simp [State.insertNotice]
  | cons y l ih =>
    rw [List.nodup_cons] at h
    unfold State.insertNotice
    split
    · exact List.nodup_cons.2 ⟨hx, List.nodup_cons.2 h⟩
    · refine List.nodup_cons.2 ⟨?_, ih h.2 fun e => hx (List.mem_cons_of_mem _ e)⟩
      rw [mem_insertNotice]
      rintro (rfl | e)
      · exact hx List.mem_cons_self
      · exact h.1 e

end Sys2Proof.Machine
end

