-- ==== Sys2Proof/Laws/Results.lean ====
section
/-! SUPPORT. Laws/Results.lean: what handing results over, ending steps and placing held results can do. -/

namespace Sys2Proof.Machine

variable {s : State} {b : BayId} {r : Result}

/-! ## The handover (R112, R127) -/

/-- Only the exchange table, the Collation Buffer and bay `b` may differ. -/
structure ResultFrame (b : BayId) (s t : State) : Prop where
  bayCount       : t.bayCount = s.bayCount
  seatDebounceMs : t.seatDebounceMs = s.seatDebounceMs
  groups         : t.groups = s.groups
  atu            : t.atu = s.atu
  slc            : t.slc = s.slc
  pending        : t.pending = s.pending
  others         : ∀ b', b' ≠ b → t.bay b' = s.bay b'

theorem ResultFrame.refl (b : BayId) (s : State) : ResultFrame b s s :=
  ⟨rfl, rfl, rfl, rfl, rfl, rfl, fun _ _ => rfl⟩

theorem ResultFrame.trans {s t u : State} (h : ResultFrame b s t) (h' : ResultFrame b t u) :
    ResultFrame b s u :=
  ⟨h'.1.trans h.1, h'.2.trans h.2, h'.3.trans h.3, h'.4.trans h.4, h'.5.trans h.5, h'.6.trans h.6,
    fun c hc => (h'.7 c hc).trans (h.7 c hc)⟩

theorem modBay_resultFrame {f : Bay → Bay} : ResultFrame b s (s.modBay b f) :=
  ⟨rfl, rfl, rfl, rfl, rfl, rfl, fun _ h => modBay_bay_other h⟩

/-- The Collation Buffer's placing of a result changes that buffer alone. -/
theorem collate_eq : (s.collate r).1 = { s with clb := (s.collate r).1.clb } := by
  unfold State.collate
  split
  · rfl
  · split <;> rfl

theorem collate_bays : (s.collate r).1.bays = s.bays := by rw [collate_eq]

@[simp] theorem collate_bay : (s.collate r).1.bay b = s.bay b := by simp only [State.bay, collate_bays]

@[simp] theorem collate_exchanges : (s.collate r).1.exchanges = s.exchanges := by rw [collate_eq]

/-- The handover of a final changes the exchange table and the Collation Buffer alone. -/
theorem handOver_eq :
    (s.handOver r).1 = { s with exchanges := (s.handOver r).1.exchanges,
                                clb := (s.handOver r).1.clb } := by
  unfold State.handOver
  rw [collate_eq]
  rfl

theorem handOver_bays : (s.handOver r).1.bays = s.bays := by rw [handOver_eq]

@[simp] theorem handOver_bay (b' : BayId) : (s.handOver r).1.bay b' = s.bay b' := by
  simp only [State.bay, handOver_bays]

theorem handOver_frame : ResultFrame b s (s.handOver r).1 := by
  rw [handOver_eq]
  exact ⟨rfl, rfl, rfl, rfl, rfl, rfl, fun _ _ => rfl⟩

/-- A final is told "held" only when no entry could take it. -/
theorem collate_held (h : (s.collate r).2 = false) : placeIn r s.clb.entries = none := by
  unfold State.collate at h
  split at h
  · exact absurd h (by simp)
  · next hp => exact hp

/-! ## The bay of an ended step -/

/-- Two bays that may differ in their steps and in the exchange window alone. -/
def SameBesidesWork (y z : Bay) : Prop :=
  ∃ fl pl wd acc, z = { y with flight := fl, places := pl, windowDelay := wd,
                               mu := { y.mu with exchangeAcc := acc } }

theorem SameBesidesWork.refl (y : Bay) : SameBesidesWork y y := ⟨_, _, _, _, rfl⟩

theorem SameBesidesWork.trans {x y z : Bay} (h : SameBesidesWork x y) (h' : SameBesidesWork y z) :
    SameBesidesWork x z := by
  obtain ⟨_, _, _, _, rfl⟩ := h
  obtain ⟨_, _, _, _, rfl⟩ := h'
  exact ⟨_, _, _, _, rfl⟩

theorem recordSummary_work (y : Bay) (w : WindowSummary) : SameBesidesWork y (y.recordSummary w) := by
  unfold Bay.recordSummary
  split
  · split
    · exact ⟨_, _, _, _, rfl⟩
    all_goals exact .refl y
  · exact .refl y
  · exact .refl y

theorem closeWindow_work (y : Bay) : SameBesidesWork y y.closeWindow := by
  unfold Bay.closeWindow
  split
  · exact .refl y
  · exact SameBesidesWork.trans (y := { y with mu := { y.mu with exchangeAcc := _ } })
      ⟨_, _, _, _, rfl⟩ (recordSummary_work _ _)

theorem afterFlight_work (y : Bay) (t : Tag) (p : Bool) : SameBesidesWork y (y.afterFlight t p) :=
  ⟨_, _, _, _, rfl⟩

theorem recordSummary_isStep (y : Bay) (w : WindowSummary) :
    (y.recordSummary w).flight.isStep = y.flight.isStep := by
  unfold Bay.recordSummary
  split
  · next h =>
    split
    · simp [h, Flight.isStep]
    all_goals rfl
  · rfl
  · rfl

theorem closeWindow_isStep (y : Bay) : y.closeWindow.flight.isStep = y.flight.isStep := by
  unfold Bay.closeWindow
  split
  · rfl
  · exact recordSummary_isStep _ _

/-! ## Formation and abnormal ends (R112, R116) -/

theorem formFlight_eq {st : Step} {rp : Reply} :
    s.formFlight b st rp = (s.handOver (s.finalOf b st rp)).1.modBay b fun y =>
      y.afterFlight st.tag (s.handOver (s.finalOf b st rp)).2 := rfl

theorem formFlight_frame {st : Step} {rp : Reply} : ResultFrame b s (s.formFlight b st rp) := by
  rw [formFlight_eq]
  exact handOver_frame.trans modBay_resultFrame

theorem formFlight_bay {st : Step} {rp : Reply} :
    ∃ p, (s.formFlight b st rp).bay b = (s.bay b).afterFlight st.tag p := by
  refine ⟨(s.handOver (s.finalOf b st rp)).2, ?_⟩
  simp [State.formFlight]

theorem endFlight_frame {cause : Outcome} : ResultFrame b s (s.endFlight b cause) := by
  unfold State.endFlight
  simp only
  split
  · exact modBay_resultFrame.trans formFlight_frame
  · exact modBay_resultFrame
  · exact modBay_resultFrame

/-- The end of the step in flight leaves no step in flight, and changes nothing of the bay but its step
and its exchange window. -/
theorem endFlight_bay {cause : Outcome} :
    SameBesidesWork (s.bay b) ((s.endFlight b cause).bay b)
      ∧ ((s.endFlight b cause).bay b).flight.isStep = false := by
  have hc := closeWindow_work (s.bay b)
  unfold State.endFlight
  simp only
  split
  · next st h =>
    obtain ⟨p, hp⟩ := formFlight_bay (s := s.modBay b Bay.closeWindow) (b := b) (st := st.ended)
      (rp := st.replyAt cause)
    rw [hp]
    refine ⟨?_, ?_⟩
    · rw [modBay_bay_same]; exact hc.trans (afterFlight_work _ _ _)
    · simp only [Bay.afterFlight]; split <;> rfl
  · next h => exact ⟨by rw [modBay_bay_same]; exact hc, by rw [h]; rfl⟩
  · next h => exact ⟨by rw [modBay_bay_same]; exact hc, by rw [h]; rfl⟩

theorem endPlaces_bays {cause : Outcome} {ps : List Place} :
    (State.endPlaces b cause ps s).1.bays = s.bays := by
  induction ps generalizing s with
  | nil => rfl
  | cons p ps ih =>
    cases p with
    | held t => exact ih
    | step st => exact ih.trans handOver_bays

theorem endPlaces_frame {cause : Outcome} {ps : List Place} :
    ResultFrame b s (State.endPlaces b cause ps s).1 := by
  induction ps generalizing s with
  | nil => exact .refl b s
  | cons p ps ih =>
    cases p with
    | held t => exact ih
    | step st => exact handOver_frame.trans ih

/-- After an abnormal end a place holds no step, and there are no more places than before. -/
theorem endPlaces_places {cause : Outcome} {ps : List Place} :
    (∀ p ∈ (State.endPlaces b cause ps s).2, p.isStep = false)
      ∧ (State.endPlaces b cause ps s).2.length ≤ ps.length := by
  induction ps generalizing s with
  | nil => simp [State.endPlaces]
  | cons p ps ih =>
    cases p with
    | held t =>
      have h := ih (s := s)
      simp only [State.endPlaces]
      refine ⟨fun q hq => ?_, by simpa using h.2⟩
      rcases List.mem_cons.1 hq with rfl | hq
      · rfl
      · exact h.1 q hq
    | step st =>
      have h := ih (s := (s.handOver (s.finalOf b st.ended (st.replyAt cause))).1)
      simp only [State.endPlaces]
      split
      · exact ⟨h.1, h.2.trans (Nat.le_succ _)⟩
      · refine ⟨fun q hq => ?_, by simpa using h.2⟩
        rcases List.mem_cons.1 hq with rfl | hq
        · rfl
        · exact h.1 q hq

theorem endSteps_eq {cause : Outcome} :
    s.endSteps b cause
      = (State.endPlaces b cause ((s.endFlight b cause).bay b).places (s.endFlight b cause)).1.modBay b
          fun y => { y with places :=
            (State.endPlaces b cause ((s.endFlight b cause).bay b).places (s.endFlight b cause)).2 } :=
  rfl

theorem endSteps_frame {cause : Outcome} : ResultFrame b s (s.endSteps b cause) := by
  rw [endSteps_eq]
  exact (endFlight_frame.trans endPlaces_frame).trans modBay_resultFrame

/-- The end of every step of a bay: no step is left there, in flight or queued, and nothing else of the
bay but its exchange window changes (R116). -/
theorem endSteps_bay {cause : Outcome} :
    SameBesidesWork (s.bay b) ((s.endSteps b cause).bay b)
      ∧ ((s.endSteps b cause).bay b).flight.isStep = false
      ∧ (∀ p ∈ ((s.endSteps b cause).bay b).places, p.isStep = false)
      ∧ ((s.endSteps b cause).bay b).places.length ≤ (s.bay b).places.length := by
  obtain ⟨hw, hf⟩ := endFlight_bay (s := s) (b := b) (cause := cause)
  have hp := endPlaces_places (s := s.endFlight b cause) (b := b) (cause := cause)
    (ps := ((s.endFlight b cause).bay b).places)
  have hb : (State.endPlaces b cause ((s.endFlight b cause).bay b).places (s.endFlight b cause)).1.bay b
      = (s.endFlight b cause).bay b := by simp only [State.bay, endPlaces_bays]
  have hpl : ((s.endFlight b cause).bay b).places = (s.bay b).places := by
    unfold State.endFlight
    simp only
    have hcl : (s.bay b).closeWindow.places = (s.bay b).places := by
      unfold Bay.closeWindow
      split
      · rfl
      · unfold Bay.recordSummary; split
        · split <;> rfl
        all_goals rfl
    split
    · next st h =>
      obtain ⟨p, hp⟩ := formFlight_bay (s := s.modBay b Bay.closeWindow) (b := b) (st := st.ended)
        (rp := st.replyAt cause)
      rw [hp, modBay_bay_same]; exact hcl
    · rw [modBay_bay_same]; exact hcl
    · rw [modBay_bay_same]; exact hcl
  have he : (s.endSteps b cause).bay b
      = { (s.endFlight b cause).bay b with
          places := (State.endPlaces b cause ((s.endFlight b cause).bay b).places
            (s.endFlight b cause)).2 } := by
    rw [endSteps_eq, modBay_bay_same, hb]
  rw [he]
  refine ⟨hw.trans ⟨_, _, _, _, rfl⟩, hf, hp.1, ?_⟩
  rw [← hpl]; exact hp.2

/-! ## Formation where the step is ready (R112) -/

theorem formResult_frame : ResultFrame b s (s.formResult b) := by
  unfold State.formResult
  split
  · split
    · exact formFlight_frame.trans modBay_resultFrame
    · exact formFlight_frame.trans modBay_resultFrame
    · exact formFlight_frame.trans modBay_resultFrame
    all_goals exact .refl b s
  all_goals exact .refl b s

/-- A handover reads no bay, so it commutes with a change of one (R112). -/
theorem handOver_setBay {y : Bay} :
    (s.setBay b y).handOver r = ((s.handOver r).1.setBay b y, (s.handOver r).2) := by
  unfold State.handOver State.collate State.modExchange
  simp only [State.setBay]
  split
  · rfl
  · split <;> rfl

/-- All that a formation at a bay that is ON does (R104, R112): the final is handed over, the flight slot
empties or holds it, no window delay runs, and the link is IDLE, or HOLDING while a result is held. -/
theorem formFlight_relink {st : Step} {rp : Reply} (hp : (s.bay b).power = .on) :
    (s.formFlight b st rp).modBay b Bay.relink
      = (s.handOver (s.finalOf b st rp)).1.setBay b { s.bay b with
          flight := if (s.handOver (s.finalOf b st rp)).2 then .empty else .held st.tag
          windowDelay := none
          link := if (s.handOver (s.finalOf b st rp)).2 = true ∧ (s.bay b).places.any Place.isHeld = false
            then .idle else .holding } := by
  rw [formFlight_eq]
  simp only [State.modBay, setBay_bay_same, setBay_setBay, handOver_bay]
  congr 1
  unfold Bay.relink Bay.afterFlight Bay.holdsResult
  cases (s.handOver (s.finalOf b st rp)).2 <;> cases (s.bay b).places.any Place.isHeld <;>
    simp only [hp] <;> rfl

/-- The final is formed exactly where the reply phase is over and no window is waited for (R112). -/
theorem formResult_ready {st : Step} {rp : Reply} (hf : (s.bay b).flight = .step st)
    (hr : st.reply = some rp) (hw : st.window ≠ .scheduled ∧ st.window ≠ .opened) :
    s.formResult b = (s.formFlight b st rp).modBay b Bay.relink := by
  unfold State.formResult
  simp only [hf, hr]
  split <;> simp_all

/-! ## Completions at a Measurement Unit -/

theorem completeExchange_frame : ResultFrame b s (s.completeExchange b) := by
  unfold State.completeExchange
  split
  · exact modBay_resultFrame.trans formResult_frame
  · exact .refl b s

/-- The completion of a monitor window changes the Measurement Unit of its bay, and the Attention Unit
when BAND is raised (R56 to R59). -/
theorem completeMonitor_eq_of_not_due (h : (s.bay b).mu.monitorAcc.due = false) :
    s.completeMonitor b = s := by
  simp [State.completeMonitor, h]

theorem completeExchange_eq_of_not_due (h : (s.bay b).mu.exchangeAcc.due = false) :
    s.completeExchange b = s := by
  simp [State.completeExchange, h]

end Sys2Proof.Machine
end

