-- ==== Sys2Proof/Laws/Hold.lean ====
section
/-! SUPPORT. Laws/Hold.lean: the three cases of a result's placing (Table 8.2), the link state after the test
of R104, and what a pass over the hold queue can do (R130). -/

namespace Sys2Proof.Machine

variable {s : State} {r : Result} {es : List Entry}

/-! ## Placing (Table 8.2) -/

/-- A result is merged, opens an entry, or finds no place. -/
theorem placeIn_cases :
    ((∃ e ∈ es, e.takes r.tag (boardOf r.bay) = true) ∧ placeIn r es = some (mergeInto r es))
    ∨ ((∀ e ∈ es, e.takes r.tag (boardOf r.bay) = false) ∧ es.length < 8
        ∧ placeIn r es = some (es ++ [Entry.openedWith r]))
    ∨ ((∀ e ∈ es, e.takes r.tag (boardOf r.bay) = false) ∧ 8 ≤ es.length ∧ placeIn r es = none) := by
  unfold placeIn
  by_cases h : es.any (fun e => e.takes r.tag (boardOf r.bay)) = true
  · left
    rw [List.any_eq_true] at h
    exact ⟨h, by rw [if_pos (List.any_eq_true.mpr h)]⟩
  · have hall : ∀ e ∈ es, e.takes r.tag (boardOf r.bay) = false := by
      intro e he
      by_contra hc
      exact h (List.any_eq_true.mpr ⟨e, he, by simpa using hc⟩)
    right
    by_cases hl : es.length < Config.batchEntries
    · exact .inl ⟨hall, hl, by rw [if_neg h, if_pos hl]⟩
    · exact .inr ⟨hall, Nat.not_lt.mp hl, by rw [if_neg h, if_neg hl]⟩

/-! ## The test of R104 -/

/-- The test changes the link state alone, and that only at a bay that is ON with no step in flight. -/
theorem relink_eq (y : Bay) : y.relink = { y with link := y.relink.link } := by
  unfold Bay.relink
  split
  · split <;> rfl
  all_goals rfl

theorem relink_link {y : Bay} (hp : y.power = .on) (hf : y.flight.isStep = false) :
    y.relink.link = if y.holdsResult then .holding else .idle := by
  unfold Bay.relink Bay.holdsResult
  rw [hp]
  cases h : y.flight with
  | empty => simp
  | held t => simp
  | step st => rw [h] at hf; exact absurd hf (by simp [Flight.isStep])

theorem relink_same {y : Bay} (h : y.power ≠ .on ∨ y.flight.isStep = true) : y.relink = y := by
  unfold Bay.relink
  split
  · next hp =>
    split
    · rfl
    · next hf => rw [hp, hf] at h; simp [Flight.isStep] at h
    · next hf => rw [hp, hf] at h; simp [Flight.isStep] at h
  all_goals rfl

/-! ## A pass over the hold queue (R130) -/

/-- A pass changes the Collation Buffer and the bays whose results it places. -/
theorem placeHeldFrom_frame {rs : List Result} :
    let t := State.placeHeldFrom rs s
    t.bayCount = s.bayCount ∧ t.seatDebounceMs = s.seatDebounceMs ∧ t.groups = s.groups
    ∧ t.exchanges = s.exchanges ∧ t.atu = s.atu ∧ t.slc = s.slc ∧ t.pending = s.pending
    ∧ ∃ placed, rs = placed ++ t.clb.hold ∧ ∀ b, (∀ r ∈ placed, r.bay ≠ b) → t.bay b = s.bay b := by
  induction rs generalizing s with
  | nil => exact ⟨rfl, rfl, rfl, rfl, rfl, rfl, rfl, [], rfl, fun _ _ => rfl⟩
  | cons r rs ih =>
    unfold State.placeHeldFrom
    split
    · next es _ =>
      obtain ⟨h1, h2, h3, h4, h5, h6, h7, placed, h8, h9⟩ :=
        ih (s := { s with clb := { s.clb with entries := es } }.modBay r.bay fun y => y.freeHeld r.tag)
      refine ⟨h1, h2, h3, h4, h5, h6, h7, r :: placed, by simpa using h8, fun b hb => ?_⟩
      rw [h9 b fun q hq => hb q (List.mem_cons_of_mem _ hq),
        modBay_bay_other (hb r (List.mem_cons_self ..)).symm]
      rfl
    · exact ⟨rfl, rfl, rfl, rfl, rfl, rfl, rfl, [], rfl, fun _ _ => rfl⟩

end Sys2Proof.Machine
end

