-- ==== Sys2Proof/Laws/Power.lean ====
section
/-! SUPPORT. Laws/Power.lean: what the completion of a window and a supply-off can do, and a period boundary
with nothing due. -/

namespace Sys2Proof.Machine

variable {s : State} {b : BayId}

/-! ## The completion of a monitor window (R55 to R59) -/

/-- Only the unit of its own bay changes. -/
theorem completeMonitor_bay (b' : BayId) : (s.completeMonitor b).bay b'
    = if b' = b ∧ (s.bay b).mu.monitorAcc.due = true then
        { s.bay b with mu := (s.bay b).mu.monitorCompleted (s.bay b).params }
      else s.bay b' := by
  unfold State.completeMonitor
  simp only
  by_cases h : (s.bay b).mu.monitorAcc.due = true
  · simp only [h, if_true, and_true]
    split <;> simp [modBay_bay]
  · simp [h]

/-- Nothing but bays and the Attention Unit changes. -/
theorem completeMonitor_frame : (s.completeMonitor b).bayCount = s.bayCount
    ∧ (s.completeMonitor b).seatDebounceMs = s.seatDebounceMs
    ∧ (s.completeMonitor b).groups = s.groups ∧ (s.completeMonitor b).exchanges = s.exchanges
    ∧ (s.completeMonitor b).clb = s.clb ∧ (s.completeMonitor b).slc = s.slc
    ∧ (s.completeMonitor b).pending = s.pending := by
  unfold State.completeMonitor
  simp only
  split
  · split <;> simp
  · simp

/-- No flag but BAND of its own bay changes. -/
theorem completeMonitor_flag {b' : BayId} {c : AttClass} (h : (b', c) ≠ (b, AttClass.band)) :
    (s.completeMonitor b).flag b' c = s.flag b' c := by
  unfold State.completeMonitor
  simp only
  split
  · split
    · rw [raiseFlag_flag_other h, modBay_flag]
    · rfl
  · rfl

/-! ## The completion of an exchange window (R107) -/

theorem exchangeCompleted_bay (y : Bay) : ∃ f a,
    y.exchangeCompleted = { y with flight := f, mu := { y.mu with exchangeAcc := a } } := by
  unfold Bay.exchangeCompleted Bay.recordSummary
  split
  · split <;> exact ⟨_, _, rfl⟩
  all_goals exact ⟨_, _, rfl⟩

/-- A formation changes of its bay only the flight slot, the window delay and the link (R112). -/
theorem formResult_bay : ∃ f d l,
    (s.formResult b).bay b = { s.bay b with flight := f, windowDelay := d, link := l } := by
  have formed (st : Step) (rp : Reply) : ∃ f d l, ((s.formFlight b st rp).modBay b Bay.relink).bay b
      = { s.bay b with flight := f, windowDelay := d, link := l } := by
    obtain ⟨p, hp⟩ := formFlight_bay (s := s) (b := b) (st := st) (rp := rp)
    rw [modBay_bay_same, hp, relink_eq]
    exact ⟨_, _, _, rfl⟩
  unfold State.formResult
  split
  · split
    · exact formed _ _
    · exact formed _ _
    · exact formed _ _
    all_goals exact ⟨_, _, _, rfl⟩
  all_goals exact ⟨_, _, _, rfl⟩

/-- Of its own bay only the window, its step, the link and the window delay change. -/
theorem completeExchange_bay : ∃ f d l a, (s.completeExchange b).bay b
    = { s.bay b with
        flight := f, windowDelay := d, link := l, mu := { (s.bay b).mu with exchangeAcc := a } } := by
  unfold State.completeExchange
  split
  · obtain ⟨f, d, l, h⟩ := formResult_bay (s := s.modBay b Bay.exchangeCompleted) (b := b)
    obtain ⟨g, a, h'⟩ := exchangeCompleted_bay (s.bay b)
    rw [h, modBay_bay_same, h']
    exact ⟨_, _, _, _, rfl⟩
  · exact ⟨_, _, _, _, rfl⟩

/-! ## Supply off (R5, R23, R71, R77) -/

/-- A bay whose output was on, after its supply is switched off: output, keys, line and unit at rest,
and what a supply-off leaves. -/
theorem supplyOff_bay {y : Bay} (h : y.power.outputOn = true) :
    y.supplyOff.supply.on = false ∧ y.supplyOff.powerKey = false ∧ y.supplyOff.volumeKey = false
    ∧ y.supplyOff.mu.sampling = .idle ∧ y.supplyOff.mu.monitorState = .stopped
    ∧ y.supplyOff.mu.outOfBand = 0 ∧ y.supplyOff.line.sending = none
    ∧ y.supplyOff.line.assembly = none ∧ y.supplyOff.seating = y.seating
    ∧ y.supplyOff.variant = y.variant ∧ y.supplyOff.bootTime = y.bootTime
    ∧ y.supplyOff.mu.lowOffset = y.mu.lowOffset ∧ y.supplyOff.mu.highOffset = y.mu.highOffset
    ∧ y.supplyOff.line.stray = y.line.stray ∧ y.supplyOff.line.garbage = y.line.garbage
    ∧ y.supplyOff.seat = y.seat ∧ y.supplyOff.removal = y.removal ∧ y.supplyOff.power = y.power := by
  unfold Bay.supplyOff
  simp only [h, if_true]
  unfold Bay.stopSampling
  simp only [Bay.closeWindow, Bay.stopLine, Bay.recordSummary]
  repeat' split
  all_goals simp_all [Mu.stopSampling, Mu.unwatch, Line.silence, Supply.disable]

/-- Supply off at a bay of the station: the bay is switched off after the windows it has due. -/
theorem supplyOff_eq (h : (s.bay b).power.outputOn = true) :
    s.supplyOff b = ((s.completeMonitor b).completeExchange b).modBay b Bay.supplyOff := by
  simp [State.supplyOff, h]

/-! ## The end of a calibration (R36, R37) -/

/-- A calibration ends only where the unit calibrates and its record is complete. -/
theorem endCalibration_eq_of_not_due
    (h : (s.bay b).mu.sampling = .calibrating → ∀ k, (s.bay b).mu.calibration = some k →
      k.complete = false) : s.endCalibration b = s := by
  unfold State.endCalibration
  split
  · next k hs hk => rw [h hs k hk]; simp
  all_goals rfl

/-- All that the end of a calibration does: the unit of its bay, and CALIBRATED raised there. -/
theorem endCalibration_complete {k : Calibration} (hs : (s.bay b).mu.sampling = .calibrating)
    (hk : (s.bay b).mu.calibration = some k) (hc : k.complete = true) :
    s.endCalibration b = (s.modBay b fun y => { y with mu := y.mu.calibrated k }).raiseFlag b
      .calibrated (calibrationData k) := by
  simp only [State.endCalibration, hs, hk, hc, if_true]

/-! ## A boundary with nothing due (R26, R31, R35) -/

/-- Where no earlier boundary has made anything due, a boundary changes its own bay alone, and ends a
calibration whose last period it ends. -/
theorem periodBoundary_eq {c : RawCode} (h1 : (s.bay b).mu.monitorAcc.due = false)
    (h2 : (s.bay b).mu.exchangeAcc.due = false)
    (h3 : ∀ k, (s.bay b).mu.calibration = some k → k.complete = false) :
    execPeriodBoundary b c s = .next ((s.modBay b fun y => y.boundary c).endCalibration b) := by
  unfold execPeriodBoundary State.settleDue
  rw [completeMonitor_eq_of_not_due h1, completeExchange_eq_of_not_due h2,
    endCalibration_eq_of_not_due fun _ => h3]

/-- A boundary at a unit that samples, with nothing due, changes its own bay alone. -/
theorem periodBoundary_sampling {c : RawCode} (h1 : (s.bay b).mu.monitorAcc.due = false)
    (h2 : (s.bay b).mu.exchangeAcc.due = false)
    (h3 : ∀ k, (s.bay b).mu.calibration = some k → k.complete = false)
    (hs : (s.bay b).mu.sampling = .sampling) :
    execPeriodBoundary b c s = .next (s.modBay b fun y => y.boundary c) := by
  rw [periodBoundary_eq h1 h2 h3, endCalibration_eq_of_not_due]
  intro hc
  rw [modBay_bay_same] at hc
  simp [Bay.boundary, hs, Mu.samplingBoundary, Mu.beginPeriod, Mu.applyRange, Mu.endPeriod] at hc
  split at hc <;> (split at hc <;> simp_all)

end Sys2Proof.Machine
end

