-- ==== Sys2Proof/Laws/Requests.lean ====
section
/-! SUPPORT. Laws/Requests.lean: the arrival and the checks of a request, verdict lists and passes over
accepted bays. -/

namespace Sys2Proof.Machine

variable {s : State} {kind : Byte} {tag : Tag} {payload : List Byte}

/-! ## Arrival (R164, R166) -/

/-- A frame that can arrive is taken where a place is free. -/
theorem arrives_taken {take : State → State} (h1 : s.slc.receiver.held = false)
    (h2 : s.slc.claimed < 4) (h3 : payloadFits payload = true) :
    s.arrives kind tag payload take
      = take { s with slc := { s.slc with framesDropped := 0, receiver := .hunting } } := by
  simp [State.arrives, State.goodFrame, h1, h2, h3, Config.answerPlaces]

/-- Every taking that keeps a relation to the state before keeps it through the arrival, if being held
does. -/
theorem arrives_keeps (P : State → Prop) {take : State → State} (h : P s)
    (hheld : P { s with slc := { s.slc with
      framesDropped := 0, receiver := .holding (bodyOf kind tag payload) } })
    (htake : P (take { s with slc := { s.slc with framesDropped := 0, receiver := .hunting } })) :
    P (s.arrives kind tag payload take) := by
  unfold State.arrives State.goodFrame
  split
  · exact h
  · split
    · exact htake
    · exact hheld

/-! ## The checks (R167, R180) -/

/-- A request that passes the checks is handed to its owner. -/
theorem checked_passed {α : Type} {r : α} {meaningful : α → Bool} {owner : α → State}
    (h1 : tag ≠ 0) (h2 : meaningful r = true) :
    s.checked kind tag (some r) meaningful owner = owner r := by
  simp only [State.checked, if_neg h1, h2, if_true]

/-- A request that fails one is answered alone, and its owner is not reached. -/
theorem checked_keeps (P : State → Prop) {α : Type} {parsed : Option α} {meaningful : α → Bool}
    {owner : α → State} (hans : ∀ st, P (s.answer kind tag st .none))
    (howner : ∀ r, parsed = some r → tag ≠ 0 → meaningful r = true → P (owner r)) :
    P (s.checked kind tag parsed meaningful owner) := by
  unfold State.checked
  split
  · exact hans _
  · next r =>
    split
    · exact hans _
    · next ht =>
      split
      · next hm => exact howner r rfl ht hm
      · exact hans _

/-! ## Verdict lists (R89) -/

variable {S : BaySet} {judge : BayId → Option Reason}

@[simp] theorem inSet_accepted (b : BayId) :
    inSet (verdictsOf S judge).accepted b = (inSet S b && (judge b).isNone) := by
  simp [verdictsOf]

theorem mem_refused {b : BayId} {r : Reason} :
    (b, r) ∈ (verdictsOf S judge).refused ↔ inSet S b = true ∧ judge b = some r := by
  simp only [verdictsOf, List.mem_filterMap]
  constructor
  · rintro ⟨a, -, ha⟩
    split at ha
    · next hS =>
      rw [Option.map_eq_some_iff] at ha
      obtain ⟨r', hr, he⟩ := ha
      obtain ⟨rfl, rfl⟩ := Prod.mk.injEq .. ▸ he
      exact ⟨hS, hr⟩
    · exact absurd ha (by simp)
  · rintro ⟨hS, hj⟩
    exact ⟨b, mem_allBays b, by simp [hS, hj]⟩

/-! ## Passes over bays -/

/-- A pass whose action at each bay touches that bay alone, and does there what depends on that bay
alone up to `R`, leaves the bays outside the set and relates those in it by `R`. -/
theorem forBays_bay {f : BayId → State → State} {R : Bay → Bay → Prop}
    (hother : ∀ b b' s, b' ≠ b → (f b s).bay b' = s.bay b')
    (hself : ∀ b s, R (s.bay b) ((f b s).bay b)) (b : BayId) :
    (inSet S b = false → (s.forBays S f).bay b = s.bay b)
    ∧ (inSet S b = true → R (s.bay b) ((s.forBays S f).bay b)) := by
  have key : ∀ (l : List BayId) (s : State), l.Nodup →
      (b ∉ l ∨ inSet S b = false →
        (l.foldl (fun s b => if inSet S b then f b s else s) s).bay b = s.bay b)
      ∧ (b ∈ l → inSet S b = true →
        R (s.bay b) ((l.foldl (fun s b => if inSet S b then f b s else s) s).bay b)) := by
    intro l
    induction l with
    | nil => intro s _; simp
    | cons a l ih =>
      intro s hd
      rw [List.nodup_cons] at hd
      rw [List.foldl_cons]
      obtain ⟨i1, i2⟩ := ih (if inSet S a then f a s else s) hd.2
      by_cases hab : b = a
      · subst hab
        constructor
        · rintro (h | h)
          · exact absurd (List.mem_cons_self ..) h
          · rw [i1 (.inl hd.1), h]; simp
        · intro _ h
          rw [i1 (.inl hd.1), h]
          exact hself b s
      · have hb : (if inSet S a then f a s else s).bay b = s.bay b := by
          split
          · exact hother a b s hab
          · rfl
        rw [hb] at i1 i2
        constructor
        · rintro (h | h)
          · exact i1 (.inl fun hm => h (List.mem_cons_of_mem _ hm))
          · exact i1 (.inr h)
        · intro hm h
          exact i2 ((List.mem_cons.mp hm).resolve_left hab) h
  obtain ⟨k1, k2⟩ := key allBays s (List.nodup_finRange 24)
  exact ⟨fun h => k1 (.inr h), fun h => k2 (mem_allBays b) h⟩

end Sys2Proof.Machine
end

