-- ==== Sys2Proof/WellFormed.lean ====
section
/-! DEFINITION. WellFormed.lean: which commands name something the spec describes. The checks are of the
command alone; whether its event can happen in a state is decided by its meaning. -/

namespace Sys2Proof

/-- A command is well formed when its payload fits a request frame, an unknown kind is no request
kind (R167), and a length discarded as out of range is out of range (R163). -/
def Instr.wellFormed : Instr → Bool
  | .powerOn _ p | .powerOff _ p | .zero _ p | .configureBay _ p | .defineGroup _ p
  | .dropGroups _ p | .send _ p | .cancel _ p | .sync _ p | .queryBay _ p | .ackAttention _ p
  | .identify _ p | .configureStation _ p | .resetStation _ p => payloadFits p
  | .unknownKindRequest k _ p => payloadFits p && !isRequestKind k
  | .frameDiscarded (.lengthOutOfRange l0 l1) => !lengthInRange (lengthOf l0 l1)
  | .frameDiscarded .checkMismatch => true
  | .sensorCloses _ | .sensorOpens _ | .seatDebounceExpiry _ | .removalTimerExpiry _
  | .outputGood _ | .limitEngaged _ | .limitReleased _ | .belowBrownout _ | .aboveBrownout _
  | .riseTimerExpiry _ | .keyTimerExpiry _ | .bootDeadlineExpiry _ | .limitTripTimerExpiry _
  | .brownoutTripTimerExpiry _ | .calibrationEnd _ | .periodBoundary _ _ | .windowCompletion _ _
  | .settleTimerExpiry _ | .uplinkByte _ _ | .framingFault _ | .lineTimerExpiry _
  | .downlinkEndOfTransmission _ | .stepDispatch _ | .replyDeadlineExpiry _
  | .windowDelayExpiry _ | .batchAgeTick | .takeAnswer | .heldFrameTaken | .takeAttentionNotice
  | .takeBatchEntry | .takeLogLine | .batchEndOfTransmission | .heldResultPlacement
  | .parkedRequestCompletion | .attentionEndOfTransmission | .frameEndOfTransmission
  | .gapTimerExpiry | .usbBusReset | .powerOnReset _ _ | .byteTakenFromPipe _ => true

end Sys2Proof
end

