-- ==== Sys2Proof/Tests/Slice0.lean ====
section
/-! SUPPORT. Tests/Slice0.lean: the smoke tests of the well-formedness checks, the worked examples of the
manual, and for every statement with hypotheses a state and operands that meet them. Expected values
are the manual's own figures, or are worked by hand from its tables. -/

namespace Sys2Proof.Tests

open Sys2Proof Sys2Proof.Machine Sys2Proof.Claims

/-! ## Helpers -/

/-- The outcome is a next state with a property. -/
def gives (o : Host.Outcome State Fault Refusal) (p : State → Bool) : Bool :=
  match o with
  | .next t => p t
  | .fault _ => false
  | .refused _ => false

/-- The state after reset with one bay replaced. -/
def withBayAt (b : BayId) (y : Bay) : State := State.reset.setBay b y

/-- A seated bay that is OFF. -/
def offBay : Bay := { Bay.reset with sensorClosed := true, seat := .seated, seating := 30, power := .off }

/-- A bay in POWERING, before output good. -/
def poweringBay : Bay := offBay.enterPowering .plain

/-- A bay in BOOTING. -/
def bootingBay : Bay := poweringBay.outputGoodReport.enterBooting

/-- A bay that is ON with nothing in flight. -/
def onBay : Bay := bootingBay.enterOn 14230

/-- A step of exchange 0x0101 whose line was sent. -/
def awaitingStep : Step :=
  { Step.fresh 0x0101 30 false with
    deadline := .running (Timer.start 2000), replyDeadlineMs := 2000, extendLimit := 3, clock := 88 }

/-- A bay AWAITING the reply of that step. -/
def awaitingBay : Bay := { onBay with link := .awaiting, flight := .step awaitingStep }

/-- A bay with that step at the head of its queue. -/
def queuedBay : Bay := { onBay with places := [.step (Step.fresh 0x0101 30 false)] }

/-- A window specification of one anchor and delay. -/
def specOf (anchor : Anchor) (delayMs : Nat) : WindowSpec :=
  { anchor := anchor, delayMs := delayMs, length := 10, lo := 20000, hi := 28000,
    peakCeiling := some 36000, rmsCeiling := none }

/-- The record of exchange 0x0101, sent to one bay. -/
def recordOf (b : BayId) (w : Option WindowSpec) : Exchange :=
  { tag := 0x0101, text := [0x41], target := onlyBay b, pending := onlyBay b, reported := 0,
    reportInterim := false, window := w, state := .opened, cancelled := false }

/-- The state with one bay and the record of exchange 0x0101. -/
def withExchange (b : BayId) (y : Bay) (w : Option WindowSpec) : State :=
  { withBayAt b y with exchanges := [recordOf b w] }

/-- A final result of exchange 0x0101 from a bay. -/
def resultOf (b : BayId) : Result :=
  { bay := b, seating := 30, tag := 0x0101, kind := .final, outcome := some .ok, truncated := false,
    extensions := 0, interimsDropped := 0, elapsed := 88, text := [0x4F, 0x4B], window := none }

/-- An entry with that result. -/
def entryOf (b : BayId) : Entry := Entry.openedWith (resultOf b)

/-- A target that names bay 0 alone, as carried: form BAYS, its set, no pin. -/
def bay0Target : List Byte := [0, 1, 0, 0, 0]

/-- A target that names group 0, as carried: form GROUP, the number, no pin. -/
def group0 : List Byte := [1, 0, 0]

/-- The first target as read. -/
def bay0 : Target := { form := .bays 1, pins := [] }

/-! ## The well-formedness checks each refuse an ill-formed command -/

theorem test_wf_payload_too_long : (Instr.send 1 (List.replicate 510 0)).wellFormed = false := by
  decide +kernel
theorem test_wf_payload_longest : (Instr.send 1 (List.replicate 509 0)).wellFormed = true := by
  decide +kernel
theorem test_wf_known_kind : (Instr.unknownKindRequest 0x0E 1 []).wellFormed = false := by decide
theorem test_wf_unknown_kind : (Instr.unknownKindRequest 0x0F 1 []).wellFormed = true := by decide
theorem test_wf_length_in_range :
    (Instr.frameDiscarded (.lengthOutOfRange 3 0)).wellFormed = false := by decide
theorem test_wf_length_below :
    (Instr.frameDiscarded (.lengthOutOfRange 2 0)).wellFormed = true := by decide

/-! ## The manual's worked examples -/

/-- Sections 3.7.1, 3.7.2 and 3.7.4: means with and without a tie. -/
theorem test_means : meanOf 232200 8 = 29025 ∧ meanOf 108200 4 = 27050 ∧ meanOf (-324) 8 = -41
    ∧ meanOf 324 8 = 41 ∧ meanOf 312765 10 = 31277 := by decide

/-- The same sections: rms values. -/
theorem test_rms : rootOf (6808140000 / 8) = 29172 ∧ rootOf (2961640000 / 4) = 27210
    ∧ rootOf (13164 / 8) = 40 ∧ rootOf (9796420075 / 10) = 31299 := by decide +kernel

/-- The items of Table 3.5, and Table 3.6's switch after the third. -/
def window36 : Accumulator :=
  let low (i : Int) : PeriodItem := { sample := some ⟨i, .low, false⟩, settle := false }
  let high (i : Int) : PeriodItem := { sample := some ⟨i, .high, false⟩, settle := false }
  let blank : PeriodItem := { sample := none, settle := false }
  let a := [low 24000, low 24200, low 30000].foldl Accumulator.take
    (Accumulator.opening 10 (some (specOf .atSend 0))).begin
  [blank, blank, high 30000, high 30500, high 32000, high 31500, high 30000].foldl Accumulator.take
    a.noteSwitch

/-- The last row of Table 3.6 and the verdict of section 3.7.1. -/
theorem test_window36 : window36.n = 8 ∧ window36.blanked = 2 ∧ window36.switches = 1
    ∧ window36.s1 = 232200 ∧ window36.s2 = 6808140000 ∧ window36.min = some 24000
    ∧ window36.max = some 32000 ∧ window36.completed.verdict = .fail
    ∧ window36.completed.reasons = { Reasons.none with high := true } := by decide +kernel

/-- Table 2.9 and the FAULT of section 2.7: candidates. -/
theorem test_candidates : candidateOf 3136 = 12 ∧ candidateOf (-736) = -3
    ∧ candidateOf 131328 = 513 ∧ candidateOf (-512) = -2 := by decide

/-- Table 6.5 and the examples under it. -/
theorem test_clamps : clampStep 10 3000 4600 2999 = 3000 ∧ clampStep 10 3000 4600 3604 = 3600
    ∧ clampStep 10 100 4000 4005 = 4000 ∧ clampStep 10 2500 4400 4450 = 4400
    ∧ lowerTo (some 3800) 3700 = 3600 ∧ clampRate 500000 = 460800 ∧ clampRate 9600 = 115200
    ∧ clampCount 5 = 8 ∧ clampCount 33 = 64 := by decide

/-- Table 5.4: the line of its first row, and how its lines are classified. -/
theorem test_downlink :
    downlinkLine 0 [0x56, 0x42, 0x41, 0x54, 0x3F]
      = [0x40, 0x30, 0x30, 0x20, 0x56, 0x42, 0x41, 0x54, 0x3F, 0x0A] := by decide

/-- `>00 3848`, `>1 ok`, `cam0`, `+01 busy` and `!READY` of Table 5.4. -/
theorem test_classify :
    (Assembly.start [0x3E, 0x30, 0x30, 0x20, 0x33] false).classify = .final 0 [0x33] false
    ∧ (Assembly.start [0x3E, 0x31, 0x20, 0x6F, 0x6B] false).classify = .garbage
    ∧ (Assembly.start [0x63, 0x61, 0x6D, 0x30] false).classify = .garbage
    ∧ (Assembly.start [0x2B, 0x30, 0x31, 0x20, 0x62] false).classify = .interim 1 [0x62] false
    ∧ (Assembly.start [0x21, 0x52, 0x45, 0x41, 0x44, 0x59] false).classify
        = .event readyText false := by decide

/-- Table 4.6, W4: a HIGH window brings the count from 1 to 2 and BAND is reached; W5 leaves it at 2. -/
theorem test_monitor_count : outOfBandAfter 1 2 .high = 2 ∧ outOfBandAfter 2 2 .low = 2
    ∧ outOfBandAfter 2 2 .inband = 0 ∧ outOfBandAfter 1 2 .suppressed = 1 := by decide

/-- Table 6.7, the second row: ANY takes the lowest undefined entry. -/
theorem test_group_any : gives
    (exec (.defineGroup 2 [0xFF, 0xFF, 0x03, 0x00, 0x00])
      { State.reset with groups := State.reset.groups.set 0 ⟨true, 0x0000FF, true⟩ })
    (fun t => decide (t.group 1 = ⟨true, 0x0003FF, false⟩)
      && decide (t.slc.answers = [⟨2, 0x04, .ok, .group 1 false⟩])) = true := by decide +kernel

/-- Table 6.7, the fifth row: DROP_GROUPS ONE 3 of an undefined entry. -/
theorem test_drop_unknown : gives (exec (.dropGroups 3 [0, 3]) State.reset)
    (fun t => decide (t.slc.answers = [⟨3, 0x05, .unknownGroup, .none⟩])) = true := by decide +kernel

/-- Table 6.8, bay 3: brownout_mv lowered to 3,400 beside supply_mv 3,600. -/
theorem test_brownout_lowered :
    storedBrownout { (Settings.mk none none none none none none none none none none none none none
        none none none none none) with supplyMv := some 3600 }
      { Params.reset with supplyMv := 4000, brownoutMv := 3500 } = 3400 := by decide

/-- The bytes of Table 10.2 up to its first mismatch, with a body of five zero bytes: noise, a false sync
whose length is out of range, the sync found in the rescan, and a frame whose check fails. -/
theorem test_receiver_resync : gives
    (run ([0x7E, 0x20, 0xC3, 0xC3, 0x05, 0x00, 0, 0, 0, 0, 0, 0xFF, 0xFF].map
      Instr.byteTakenFromPipe) State.reset)
    (fun t => decide (t.slc.framesDropped = 2) && decide (t.slc.receiver = .hunting)) = true := by
  decide +kernel

/-- The last row of Table 10.2: an IDENTIFY with tag 0x0044 sets the count to 0 and is answered. -/
theorem test_receiver_good : gives
    (run ((frameOf [0x01, 0x44, 0x00]).map Instr.byteTakenFromPipe)
      { State.reset with slc := { Slc.reset with framesDropped := 3 } })
    (fun t => decide (t.slc.framesDropped = 0)
      && decide (t.slc.answers = [⟨0x0044, 0x01, .ok, .identity 24⟩])) = true := by decide +kernel

/-- Table 11.15: a record with no window is 12 bytes and its text field. -/
theorem test_record_length : (resultOf 8).bytes.length = 15 := by decide

/-- A sampling bay in LOW with offsets 12 and −3 (section 2.5). -/
def lowBay : Bay :=
  { onBay with mu := { onBay.mu with
      range := .low, lowOffset := 12, highOffset := -3, blanking := 0, wholePeriod := true } }

/-- The same bay in HIGH with 63 small samples counted. -/
def highBay : Bay := { lowBay with mu := { lowBay.mu with range := .high, downCount := 63 } }

/-- Table 2.4, period 109: an adjusted code of 30,000 switches up, and one of 29,999 does not. -/
theorem test_up_switch :
    gives (exec (.periodBoundary 7 30012) (withBayAt 7 lowBay))
      (fun t => decide ((t.bay 7).mu.range = .high) && decide ((t.bay 7).mu.periodBlanked = true))
      = true
    ∧ gives (exec (.periodBoundary 7 30011) (withBayAt 7 lowBay))
      (fun t => decide ((t.bay 7).mu.range = .low)) = true := by decide +kernel

/-- Table 2.4, periods 105 and 41: the 64th code of 48 switches down, one of 49 restarts the count. -/
theorem test_down_switch :
    gives (exec (.periodBoundary 7 45) (withBayAt 7 highBay))
      (fun t => decide ((t.bay 7).mu.range = .low) && decide ((t.bay 7).mu.downCount = 0)) = true
    ∧ gives (exec (.periodBoundary 7 46) (withBayAt 7 highBay))
      (fun t => decide ((t.bay 7).mu.range = .high) && decide ((t.bay 7).mu.downCount = 0)) = true := by
  decide +kernel

/-- Table 1.5: POWER_ON of a seated bay that is OFF puts it in POWERING; of an absent target it is
refused. -/
theorem test_power_on :
    gives (exec (.powerOn 9 (bay0Target ++ [1])) (withBayAt 0 offBay))
      (fun t => decide ((t.bay 0).power = .powering) && decide ((t.bay 0).variant = .recovery)) = true
    ∧ gives (exec (.powerOn 9 ([0, 0, 0, 1, 0] ++ [1])) { withBayAt 0 offBay with bayCount := 16 })
      (fun t => decide (t.slc.answers = [⟨9, 0x06, .badTarget, .none⟩])) = true := by decide +kernel

/-- R69, R68: a station reset sets the rates in use and the pending ones from link_rate; a switch-on sets the
rates in use from it and leaves none pending. -/
theorem test_reset_rates :
    gives (exec (.resetStation 9 []) (withBayAt 0 { offBay with line := { offBay.line with
        txRate := .r921600, rxRate := .r921600, txPending := none, rxPending := none } }))
      (fun t => decide ((t.bay 0).line = lineAfterReset)) = true
    ∧ gives (exec (.powerOn 9 (bay0Target ++ [0])) (withBayAt 0 offBay))
      (fun t => decide ((t.bay 0).line = { lineAfterReset with txPending := none, rxPending := none }))
      = true := by decide +kernel

/-- The block runs the command at the front of its queue, and the rest waits; with nothing waiting a
millisecond passes. -/
theorem test_step : gives
    (step { State.reset with pending := [.sensorCloses 4, .sensorOpens 4] })
    (fun t => decide ((t.bay 4).seat = .seating) && decide (t.pending = [.sensorOpens 4])) = true
    ∧ gives (step (withBayAt 4 { Bay.reset with debounce := some ⟨200, 200⟩ }))
      (fun t => decide ((t.bay 4).debounce = some ⟨200, 199⟩)) = true := by decide +kernel

/-- No row of the table has bits, so no word spells a command (log entry 15). -/
theorem test_no_word : decodeTableWord 8 0x0E = none ∧ decodeTableWord 0 0 = none := by decide

/-! ## Witnesses: for each statement with hypotheses, a state and operands that meet them -/

/-- One test for every bay of a state with one bay replaced. -/
theorem all_bays {P : Bay → Prop} {b : BayId} {y : Bay} (h0 : P Bay.reset) (h1 : P y) (b' : BayId) :
    P ((withBayAt b y).bay b') := by
  unfold withBayAt
  rw [setBay_bay]
  split
  · exact h1
  · have h : State.reset.bay b' = Bay.reset := by
      simp [State.bay, State.reset, Vector.get_eq_getElem]
    rw [h]; exact h0

theorem witness_StepTakesFrontCommand : (withBayAt 4 awaitingBay).pending = [] := by decide

theorem witness_SeatingNumberChangesAtSeatingOnly :
    (∃ t, exec (.seatDebounceExpiry 1) (withBayAt 1 { Bay.reset with
      seat := .seating, debounce := started 200 }) = .next t)
    ∧ Instr.seatDebounceExpiry 1 ≠ .seatDebounceExpiry 0
    ∧ ∀ p q, Instr.seatDebounceExpiry 1 ≠ .powerOnReset p q :=
  ⟨⟨_, rfl⟩, by decide, by intro p q h; cases h⟩

theorem witness_StepKeepsPowerLegal :
    (withBayAt 23 awaitingBay).PowerLegal ∧ (withBayAt 23 awaitingBay).UnitLegal
    ∧ ∃ t, step (withBayAt 23 awaitingBay) = .next t :=
  ⟨all_bays (P := Bay.PowerLegal) ⟨by decide, by decide, by decide, by decide⟩
    ⟨by decide, by decide, by decide, by decide⟩,
    all_bays (P := fun y => y.PowerLegal ∧ y.UnitLegal)
      ⟨⟨by decide, by decide, by decide, by decide⟩,
        ⟨by decide, by decide, by decide, by decide, by decide, by decide, by decide, by decide,
          by decide, by decide⟩⟩
      ⟨⟨by decide, by decide, by decide, by decide⟩,
        ⟨by decide, by decide, by decide, by decide, by decide, by decide, by decide, by decide,
          by decide, by decide⟩⟩, _, rfl⟩

theorem awaiting_linkLegal : (withBayAt 23 awaitingBay).LinkLegal :=
  all_bays (P := fun y => y.PowerLegal ∧ y.LinkLegal)
    ⟨⟨by decide, by decide, by decide, by decide⟩,
      ⟨by decide, by decide, by decide, by decide, by decide⟩⟩
    ⟨⟨by decide, by decide, by decide, by decide⟩,
      ⟨by decide, by decide, by decide, by decide, by decide⟩⟩

theorem witness_StepKeepsLinkLegal : (withBayAt 23 awaitingBay).LinkLegal
    ∧ ∃ t, step (withBayAt 23 awaitingBay) = .next t := ⟨awaiting_linkLegal, _, rfl⟩

theorem awaiting_exchangesLegal : (withExchange 23 awaitingBay none).ExchangesLegal := by
  refine ⟨by decide, by decide, fun x hx => ?_⟩
  obtain rfl : x = recordOf 23 none := List.mem_singleton.mp hx
  exact ⟨by decide, fun b h => h, by decide⟩

/-- One step in flight at bay 23, the one bay that its exchange has pending. -/
theorem awaiting_accounts : (withExchange 23 awaitingBay none).AccountsLegal where
  link := awaiting_linkLegal
  exchanges := awaiting_exchangesLegal
  clb := ⟨by decide, by decide, by decide, by decide, by decide⟩
  steps t b := by
    have he : (withExchange 23 awaitingBay none).exchange? t
        = if (0x0101 : Tag) = t then some (recordOf 23 none) else none := by
      simp only [withExchange, State.exchange?, List.find?, recordOf]
      split <;> simp_all
    have hb : (withExchange 23 awaitingBay none).bay b = (withBayAt 23 awaitingBay).bay b := rfl
    rw [State.pendingAt, he, hb]
    by_cases h : b = 23
    · subst h
      have h23 : (withBayAt 23 awaitingBay).bay 23 = awaitingBay := by decide
      have ht : awaitingBay.stepsOf t = if (0x0101 : Tag) = t then 1 else 0 := by
        simp [Bay.stepsOf, awaitingBay, awaitingStep, Step.fresh, onBay, bootingBay, poweringBay,
          offBay, Bay.enterOn, Bay.enterBooting, Bay.outputGoodReport, Bay.enterPowering, Bay.relink,
          Bay.reset]
      rw [h23, ht]
      split
      · decide
      · rfl
    · have h0 : (withBayAt 23 awaitingBay).bay b = Bay.reset := by
        unfold withBayAt
        rw [setBay_bay, if_neg h]
        simp [State.bay, State.reset, Vector.get_eq_getElem]
      have hp : ∀ b : BayId, b ≠ 23 → inSet (recordOf 23 none).pending b = false := by
        decide +kernel
      rw [h0]
      by_cases ht : (0x0101 : Tag) = t
      · simp only [if_pos ht, hp b h]; rfl
      · simp only [if_neg ht]; rfl
  finals x hx b := by
    obtain rfl : x = recordOf 23 none := List.mem_singleton.mp hx
    revert b; decide +kernel
  homes e he := absurd he (by simp [withExchange, withBayAt, State.reset, Clb.reset])
  held r hr := absurd hr (by simp [withExchange, withBayAt, State.reset, Clb.reset])
  sending e he := absurd he (by simp [withExchange, withBayAt, State.reset, Clb.reset])
  last e rest h := absurd h (by simp [withExchange, withBayAt, State.reset, Clb.reset])

theorem witness_StepKeepsExchangesLegal : (withExchange 23 awaitingBay none).ExchangesLegal
    ∧ (withExchange 23 awaitingBay none).AccountsLegal
    ∧ ∃ t, step (withExchange 23 awaitingBay none) = .next t :=
  ⟨awaiting_exchangesLegal, awaiting_accounts, _, rfl⟩

/-- A buffer whose head is SENDING while its key is OPEN again behind it. -/
def reopenedClb : Clb :=
  { Clb.reset with entries := [{ entryOf 0 with sending := true }, entryOf 0] }

theorem witness_StepKeepsClbLegal : reopenedClb.Legal
    ∧ ∃ t, step { State.reset with clb := reopenedClb } = .next t :=
  ⟨⟨by decide, by decide, by decide, by decide, by decide⟩, _, rfl⟩

/-- The threshold at 1, and CALIBRATED, whose level is 1, raised at bay 23. -/
def queuedNotice : State :=
  { State.reset with atu := { Atu.reset with threshold := 1 } }.raiseFlag 23 .calibrated .none

theorem witness_StepKeepsNoticesLegal : queuedNotice.NoticesLegal
    ∧ ∃ t, step queuedNotice = .next t := by
  have hq : queuedNotice.atu.queue = [(23, .calibrated)] := by decide
  have h1 : queuedNotice.flag 23 .calibrated = { Flag.cleared with state := .raised, queued := true } := by
    decide
  have h2 : ∀ b c, (b, c) ≠ ((23 : BayId), AttClass.calibrated) →
      queuedNotice.flag b c = Flag.cleared := by
    intro b c h
    unfold queuedNotice
    rw [raiseFlag_flag_other h]
    simp [State.flag, Atu.reset, Vector.get_eq_getElem]
  have only : ∀ b c, (queuedNotice.flag b c).state ≠ .clear →
      (b, c) = ((23 : BayId), AttClass.calibrated) := by
    intro b c h
    by_contra hn
    exact h (by rw [h2 b c hn]; rfl)
  refine ⟨⟨by rw [hq]; decide, fun b c => ?_, fun b c => ?_, fun b c h => ?_, by rw [hq]; decide,
    fun b c b' c' h h' _ => (only b c h).trans (only b' c' h').symm, fun b c h => ?_⟩, _, rfl⟩
  · by_cases h : (b, c) = ((23 : BayId), AttClass.calibrated)
    · obtain ⟨rfl, rfl⟩ := Prod.mk.injEq .. ▸ h
      rw [h1, hq]; decide
    · rw [h2 b c h, hq]; simpa [Flag.cleared] using h
  · by_cases h : (b, c) = ((23 : BayId), AttClass.calibrated)
    · obtain ⟨rfl, rfl⟩ := Prod.mk.injEq .. ▸ h
      rw [h1]; decide
    · rw [h2 b c h]; simp [Flag.cleared]
  · obtain ⟨rfl, rfl⟩ := Prod.mk.injEq .. ▸ only b c (by rw [h]; decide)
    decide
  · obtain ⟨rfl, rfl⟩ := Prod.mk.injEq .. ▸ only b c h
    decide

/-- A bay whose seating is under way. -/
def seatingBay : Bay :=
  { Bay.reset with sensorClosed := true, seat := .seating, debounce := started 200 }

/-- The last present bay in each seat state, and the first absent one of a station of 8 bays. -/
theorem witness_SeatSensorEvents :
    (23 : BayId).val < State.reset.bayCount ∧ (State.reset.bay 23).seat = .vacant
    ∧ ((withBayAt 23 seatingBay).bay 23).seat = .seating
    ∧ ((withBayAt 23 offBay).bay 23).seat = .seated
    ∧ { State.reset with bayCount := 8 }.bayCount ≤ (8 : BayId).val := by decide

theorem witness_DebounceExpirySeats : ((withBayAt 0 seatingBay).bay 0).seat = .seating
    ∧ ((withBayAt 0 seatingBay).bay 0).debounce.isSome = true := by decide

/-- R114, R119: a removal ends the step in flight with a final REMOVED and its elapsed count. -/
theorem test_removal_ends_the_steps : gives
    (exec (.removalTimerExpiry 3) (withExchange 3 { awaitingBay with removal := started 10 } none))
    (fun t => decide ((t.bay 3).flight = .empty) && t.clb.entries.any fun e =>
      decide ((e.slots.get (slotOf 3)).map (fun r => (r.outcome, r.elapsed)) = some (some .removed, 88)))
    = true := by decide +kernel

/-- A removal from OFF and one from ON. -/
theorem witness_RemovalEndsTheSeating :
    let s := withBayAt 0 { offBay with removal := started 10 }
    let s' := withBayAt 0 { onBay with removal := started 10 }
    (s.bay 0).seat = .seated ∧ (s.bay 0).removal.isSome = true ∧ (s.bay 0).power.outputOn = false
    ∧ (s'.bay 0).seat = .seated ∧ (s'.bay 0).removal.isSome = true
    ∧ (s'.bay 0).power.outputOn = true := by decide

theorem witness_TripTimersTrip :
    let r := (withBayAt 0 poweringBay).bay 0
    let l := (withBayAt 0 { onBay with limitTrip := started 20 }).bay 0
    let u := (withBayAt 0 { onBay with brownoutTrip := started 2 }).bay 0
    (r.power = .powering ∧ r.rise.isSome = true)
    ∧ (l.power.outputOn = true ∧ l.limitTrip.isSome = true)
    ∧ (u.power.outputOn = true ∧ u.brownoutTrip.isSome = true) := by decide

theorem witness_SupplyReportsRunTheTimers :
    let y := (withBayAt 0 poweringBay).bay 0
    y.power = .powering ∧ y.outputGood = false ∧ y.power.outputOn = true
    ∧ ((withBayAt 0 offBay).bay 0).power.outputOn = false := by decide

/-- A press that ends before the phone was ready, one that ends after, and a boot under way; a ready line
in POWERING and one that completes the boot. -/
theorem witness_KeyReleaseAndBootDeadline :
    let y := (withBayAt 0 poweringBay.outputGoodReport).bay 0
    let z := (withBayAt 0 { poweringBay.outputGoodReport with earlyReady := true }).bay 0
    (y.power = .powering ∧ y.key.isSome = true ∧ y.earlyReady = false)
    ∧ (z.power = .powering ∧ z.key.isSome = true ∧ z.earlyReady = true ∧ z.flight.isStep = false)
    ∧ ((withBayAt 0 bootingBay).bay 0).power = .booting
    ∧ ((withBayAt 0 bootingBay).bay 0).bootDeadline = started 45000
    ∧ isReady readyText = true ∧ ((withBayAt 0 bootingBay).bay 0).bootTimer = some 0
    ∧ ((withBayAt 0 bootingBay).bay 0).flight.isStep = false := by decide

theorem witness_PowerOnPowersTheAccepted :
    Arrives (withBayAt 0 offBay) (bay0Target ++ [0]) ∧ (9 : Tag) ≠ 0
    ∧ readPowerOn (bay0Target ++ [0]) = some { target := bay0, variant := 0 }
    ∧ (PowerOnRequest.mk bay0 0).meaningful = true ∧ (withBayAt 0 offBay).resolve bay0 = .ok 1 :=
  ⟨⟨by decide, by decide, by decide⟩, by decide, by decide, by decide, rfl⟩

/-- A bay that is ON, one that is TRIPPED and one that is OFF; a bay with a monitor window due. -/
theorem witness_PowerOffPutsTheAcceptedOff :
    Arrives (withBayAt 0 onBay) bay0Target ∧ (9 : Tag) ≠ 0 ∧ readTargetOnly bay0Target = some bay0
    ∧ bay0.meaningful = true ∧ (withBayAt 0 onBay).resolve bay0 = .ok 1
    ∧ ((withBayAt 0 onBay).bay 0).power.outputOn = true
    ∧ ((withBayAt 0 { offBay with power := .tripped }).bay 0).power = .tripped
    ∧ ((withBayAt 0 offBay).bay 0).power = .off
    ∧ ((withBayAt 0 onBay).bay 0).mu.monitorAcc.due = false
    ∧ { Accumulator.opening 10 none with state := .running, elapsed := 10 }.due = true :=
  ⟨⟨by decide, by decide, by decide⟩, by decide, by decide, by decide, rfl, by decide, by decide,
    by decide, by decide, by decide⟩

theorem witness_ZeroStartsTheAccepted :
    Arrives State.reset bay0Target ∧ (9 : Tag) ≠ 0 ∧ readTargetOnly bay0Target = some bay0
    ∧ bay0.meaningful = true ∧ State.reset.resolve bay0 = .ok 1 :=
  ⟨⟨by decide, by decide, by decide⟩, by decide, by decide, by decide, rfl⟩

/-- A bay whose calibration has taken its last period, with a LOW sum. -/
def calibratedBay (lowSum : Int) : Bay :=
  { offBay with mu := { offBay.mu with
      sampling := .calibrating, wholePeriod := true
      calibration := some { phase := .highSum, count := 256, lowSum := lowSum, highSum := -512 } } }

/-- The least and the greatest sum of 256 codes, and 0; a record that is complete. -/
theorem witness_CandidateRoundsHalvesAway :
    ((0 : Int) ≤ 0 ∧ (-1 : Int) < 0 ∧ (-8388608 : Int) ≤ -8388608 ∧ (-8388608 : Int) ≤ 8388352)
    ∧ ((withBayAt 5 (calibratedBay 3136)).bay 5).mu.sampling = .calibrating
    ∧ ∃ k, ((withBayAt 5 (calibratedBay 3136)).bay 5).mu.calibration = some k ∧ k.complete = true :=
  ⟨by decide, by decide, _, rfl, by decide⟩

/-- A LOW candidate of 512, which is within the limits, and one of 513, which is not (section 2.7). -/
theorem witness_CalibrationEndStoresOrFaults :
    ((withBayAt 5 (calibratedBay 131072)).bay 5).mu.sampling = .calibrating
    ∧ ((withBayAt 5 (calibratedBay 131072)).bay 5).mu.calibration
        = some ⟨.highSum, 256, 131072, -512⟩
    ∧ (Calibration.mk .highSum 256 131072 (-512)).complete = true
    ∧ candidateOf 131072 = 512 ∧ candidateOf 131328 = 513 ∧ candidateOf (-512) = -2 := by decide

theorem witness_CalibrationRunSumsItsPeriods :
    let s := withBayAt 5 (offBay.beginCalibration)
    (s.bay 5).mu.sampling = .calibrating ∧ (s.bay 5).mu.wholePeriod = false
    ∧ (s.bay 5).mu.calibration = some ⟨.lowBlank, 0, 0, 0⟩
    ∧ (s.bay 5).mu.monitorAcc.due = false ∧ (s.bay 5).mu.exchangeAcc.due = false
    ∧ (List.replicate 256 (12 : RawCode)).length = 256
    ∧ (List.replicate 255 (-3 : RawCode)).length = 255 := by decide +kernel

/-- R35, R37: the boundary that ends period 516 completes the calibration, so that a POWER_ON taken next is
not BUSY. -/
theorem test_last_period_ends_the_calibration : gives
    (run [.periodBoundary 5 (-3), .powerOn 9 ([0, 0x20, 0, 0, 0] ++ [0])]
      (withBayAt 5 { offBay with mu := { offBay.mu with
        sampling := .calibrating, wholePeriod := true
        calibration := some ⟨.highSum, 255, 3136, -733⟩ } }))
    (fun t => decide ((t.bay 5).mu.lowOffset = 12) && decide ((t.bay 5).mu.highOffset = -3)
      && decide ((t.bay 5).power = .powering)
      && decide ((t.flag 5 .calibrated).data = .calibration false 12 (-3))) = true := by decide +kernel

/-- A bay in LOW and one in HIGH at its 64th small sample, with no range_mode pending and with one; a bay
whose sampling has just started. test_up_switch and test_down_switch take the codes on both sides of
each threshold. -/
theorem witness_BoundaryDecidesTheRange :
    (((withBayAt 7 lowBay).bay 7).mu.sampling = .sampling ∧ NothingDue ((withBayAt 7 lowBay).bay 7)
      ∧ ((withBayAt 7 lowBay).bay 7).mu.wholePeriod = true
      ∧ ((withBayAt 7 lowBay).bay 7).mu.pendingRange = none)
    ∧ (((withBayAt 7 highBay).bay 7).mu.sampling = .sampling ∧ NothingDue ((withBayAt 7 highBay).bay 7)
      ∧ ((withBayAt 7 highBay).bay 7).mu.wholePeriod = true
      ∧ { highBay.mu with pendingRange := some .low }.pendingRange = some .low)
    ∧ ((withBayAt 7 poweringBay).bay 7).mu.sampling = .sampling
    ∧ NothingDue ((withBayAt 7 poweringBay).bay 7)
    ∧ ((withBayAt 7 poweringBay).bay 7).mu.wholePeriod = false
    ∧ ((withBayAt 7 poweringBay).bay 7).mu.pendingRange = none := by
  have hn : ∀ y : Bay, y = lowBay ∨ y = highBay ∨ y = poweringBay → NothingDue y := by
    rintro y (rfl | rfl | rfl)
    all_goals exact ⟨by decide, by decide, fun k h => absurd h (by intro h; cases h)⟩
  refine ⟨⟨by decide, ?_, by decide, by decide⟩, ⟨by decide, ?_, by decide, by decide⟩, by decide, ?_,
    by decide, by decide⟩
  · unfold withBayAt; rw [setBay_bay_same]; exact hn _ (.inl rfl)
  · unfold withBayAt; rw [setBay_bay_same]; exact hn _ (.inr (.inl rfl))
  · unfold withBayAt; rw [setBay_bay_same]; exact hn _ (.inr (.inr rfl))

/-- Table 3.6: a switch at a boundary inside a running window is counted, and a STARTING one runs. -/
theorem test_boundary_windows : gives
    (exec (.periodBoundary 7 30012) (withBayAt 7 { lowBay with mu := { lowBay.mu with
      monitorAcc := Accumulator.opening 10 none
      exchangeAcc := (Accumulator.opening 10 (some (specOf .atSend 0))).begin } }))
    (fun t => decide ((t.bay 7).mu.exchangeAcc.switches = 1)
      && decide ((t.bay 7).mu.exchangeAcc.s1 = 30000) && decide ((t.bay 7).mu.exchangeAcc.elapsed = 1)
      && decide ((t.bay 7).mu.monitorAcc = (Accumulator.opening 10 none).begin)) = true := by
  decide +kernel

/-- One sample of 0, of −1 and of 41, and the greatest quotient; a window without a sample and one with
samples. -/
theorem witness_MeanAndRmsAreExact :
    (0 < 1 ∧ (0 : Int) ≤ 0 ∧ (-1 : Int) < 0) ∧ ((41 : Int) * (1 : Nat) ≤ 41 ∧ (41 : Int) ≤ 41 * (1 : Nat))
    ∧ 2 ^ 64 - 1 < 2 ^ 64 ∧ Accumulator.cleared.n = 0 ∧ window36.n ≠ 0 ∧ window36.min = some 24000 := by
  decide +kernel

/-- No item of a window of none, and as many items as the window takes. -/
theorem witness_WindowSumsAreExact :
    ([] : List PeriodItem).length ≤ 0
    ∧ (List.replicate 10 (PeriodItem.mk none true)).length ≤ 10 := by decide

/-- A bay ON whose exchange window has taken its last period, at a step that waits for its reply. -/
def windowDueBay (reply : Option Reply) : Bay :=
  { awaitingBay with
    flight := .step { awaitingStep with window := .opened, reply := reply }
    mu := { onBay.mu with exchangeAcc :=
      { Accumulator.opening 10 (some (specOf .atSend 0)) with state := .running, elapsed := 10 } } }

theorem witness_VerdictFollowsTheTests :
    (window36.spec = some (specOf .atSend 0) ∧ window36.n ≠ 0)
    ∧ (Accumulator.opening 10 (some (specOf .atSend 0))).n = 0
    ∧ ((withBayAt 3 (windowDueBay none)).bay 3).mu.exchangeAcc.due = true
    ∧ ∃ st, ((withBayAt 3 (windowDueBay none)).bay 3).flight = .step st ∧ st.window = .opened
      ∧ st.reply = none :=
  ⟨by decide +kernel, by decide, by decide, _, rfl, rfl, rfl⟩

/-- A monitor window that brings the count from monitor_count − 1 to monitor_count, its one sample below
monitor_lo. -/
theorem witness_MonitorWindowCompletes :
    let m : Mu := { onBay.mu with
      outOfBand := 3, monitorState := .watching
      monitorAcc := { Accumulator.opening 10 none with
        state := .running, elapsed := 10, n := 10, s1 := -10, s2 := 10, min := some (-1),
        max := some (-1) } }
    let y := (withBayAt 9 { onBay with mu := m }).bay 9
    y.mu.monitorAcc.due = true ∧ y.mu.outOfBand < y.params.monitorCount
    ∧ outOfBandAfter y.mu.outOfBand y.params.monitorCount
        (monitorOutcome y.params.monitorLo y.params.monitorHi y.mu.monitorAcc.figures)
        = y.params.monitorCount := by decide +kernel

/-- A bay whose window delay runs out, in AWAITING. -/
def delayBay : Bay :=
  { awaitingBay with
    windowDelay := started 1, flight := .step { awaitingStep with window := .scheduled } }

theorem witness_ExchangeWindowOpensAndCompletes :
    let s := withExchange 3 delayBay (some (specOf .atSend 1))
    ((s.bay 3).windowDelay.isSome = true
      ∧ (s.bay 3).flight = .step { awaitingStep with window := .scheduled }
      ∧ s.windowOf 0x0101 = some (specOf .atSend 1) ∧ (s.bay 3).mu.sampling = .sampling)
    ∧ ((withBayAt 3 { delayBay with mu := Mu.reset }).bay 3).mu.sampling ≠ .sampling
    ∧ awaitingStep.reply = none ∧ { delayBay with mu := Mu.reset }.power = .on
    ∧ ((withBayAt 3 (windowDueBay none)).bay 3).mu.exchangeAcc.due = true
    ∧ ((withBayAt 3 (windowDueBay (some ⟨.ok, [], false, 0⟩))).bay 3).power = .on
    ∧ ((withBayAt 3 awaitingBay).bay 3).mu.exchangeAcc.due = false := by decide

/-- Tables 3.4 and 7.9: the completion of a window in MEASURING forms the final with its verdict; a CANCEL taken
after the completing boundary finds the step gone, and so does a reboot. -/
theorem test_due_window_comes_first :
    let s := { withExchange 3 (windowDueBay (some ⟨.ok, [], false, 88⟩)) (some (specOf .atSend 0)) with
      exchanges := [{ recordOf 3 (some (specOf .atSend 0)) with
        target := 0x18, pending := 0x18 }] }
    let summary (t : State) : Bool := t.clb.entries.any fun e =>
      decide ((e.slots.get (slotOf 3)).map (fun r => (r.outcome, r.window.map fun w => w.verdict))
        = some (some .ok, some .fail))
    gives (exec (.windowCompletion 3 .exchange) s) summary = true
    ∧ gives (exec (.cancel 0x0101 []) s) (fun t => summary t
        && decide (t.slc.answers = [⟨0x0101, 0x0A, .ok, .cancelCounts 0 0 0⟩])) = true
    ∧ gives (.next (s.route 3 (.event readyText false))) (fun t => summary t
        && decide ((t.flag 3 .reboot).data = .steps 0)) = true := by decide +kernel

theorem witness_SettleExpiryEndsTheInterval :
    ((withBayAt 3 poweringBay).bay 3).mu.settleTimer.isSome = true := by decide

/-- An EMPTY assembler, one with 123 bytes, one with 124 and a broken one. -/
theorem witness_UplinkAssemblyRules :
    let at' (n : Nat) := (withBayAt 3 { onBay with line := { onBay.line with
      assembly := some (Assembly.start (List.replicate n 0x41) false) } }).bay 3
    let y := (withBayAt 3 onBay).bay 3
    (y.power.outputOn = true ∧ y.line.assembly = none ∧ y.line.rxPending = none)
    ∧ ((0x41 : Byte) ≠ 0x0D ∧ (0x41 : Byte) ≠ 0x0A)
    ∧ (at' 123).line.assembly = some (Assembly.start (List.replicate 123 0x41) false)
    ∧ (at' 124).line.assembly.isSome = true
    ∧ (Assembly.start [] true).classify = .garbage
    ∧ ((withBayAt 3 offBay).bay 3).power.outputOn = false := by decide +kernel

/-- The shortest line and the longest stored one; a line of each kind, test_classify having more; an event
that is no ready line; log lines forwarded, with room and without, and not forwarded. -/
theorem witness_LineIsClassifiedWhole :
    let y := (withBayAt 3 onBay).bay 3
    y.power.outputOn = true ∧ y.line.assembly = none ∧ y.line.rxPending = none
    ∧ 1 ≤ ([0x3E] : List Byte).length ∧ (List.replicate 124 (0x3E : Byte)).length ≤ 124
    ∧ (∀ x ∈ List.replicate 124 (0x3E : Byte), x ≠ 0x0D ∧ x ≠ 0x0A)
    ∧ (hexValue 0x30 = some 0 ∧ hexValue 0x66 = some 15 ∧ hexValue 0x67 = none)
    ∧ isReady [0x52] = false ∧ y.params.logForward = false ∧ State.reset.atu.ring.length < 64
    ∧ { y.params with logForward := true }.logForward = true
    ∧ 64 ≤ { State.reset with atu := { Atu.reset with
        ring := List.replicate 64 ⟨3, 30, false, []⟩ } }.atu.ring.length := by decide +kernel

/-- With no window due; test_due_window_comes_first has one due. -/
theorem witness_ReadyInOnIsAReboot :
    let y := (withBayAt 12 awaitingBay).bay 12
    y.mu.exchangeAcc.due = false ∧
    isReady readyText = true ∧ isReady (readyText ++ [0x20]) = true ∧ y.power = .on
    ∧ y.params.settleOnChanges = true ∧ y.mu.sampling = .sampling ∧ 0 < y.params.settleMs := by
  decide

/-- A bay with a line on the wire and its step in SENDING_LINE. -/
def sendingBay : Bay :=
  { onBay with
    link := .sendingLine, flight := .step (Step.fresh 0x0101 30 true)
    line := { onBay.line with sending := some (downlinkLine 0 [0x41]) } }

/-- The same bay while it assembles an uplink line. -/
def busyBay : Bay :=
  { sendingBay with line := { sendingBay.line with assembly := some (Assembly.start [0x21] false) } }

/-- A line of a cancelled step; a step with no AT_SEND window, with one of delay 1, and of delay 0. -/
theorem witness_LineSentStartsTheDeadline :
    ((withBayAt 3 { sendingBay with link := .idle }).bay 3).line.sending.isSome = true
    ∧ ((withBayAt 3 { sendingBay with link := .idle }).bay 3).link ≠ .sendingLine
    ∧ ((withExchange 3 sendingBay none).bay 3).link = .sendingLine
    ∧ ((withExchange 3 sendingBay none).bay 3).flight = .step (Step.fresh 0x0101 30 true)
    ∧ (withExchange 3 sendingBay none).windowOf 0x0101 = none
    ∧ (withExchange 3 sendingBay (some (specOf .atReply 0))).windowOf 0x0101
        = some (specOf .atReply 0)
    ∧ (withExchange 3 sendingBay (some (specOf .atSend 1))).windowOf 0x0101
        = some (specOf .atSend 1)
    ∧ (withExchange 3 sendingBay (some (specOf .atSend 0))).windowOf 0x0101
        = some (specOf .atSend 0)
    ∧ ((withExchange 3 sendingBay none).bay 3).mu.sampling = .sampling := by decide

/-- A set that names the first absent bay, a pin of it, a pin list that repeats a bay, an empty set, the
first number that is no group's, and the last group undefined and defined; a failing target of each
request; a pin that is stale; a set of which one bay is refused. -/
theorem witness_TargetChecksInOrder :
    let s := { State.reset with
      bayCount := 8, groups := State.reset.groups.set 15 ⟨true, 0x0000FF, true⟩ }
    (inSet 0x000100 8 = true ∧ s.bayCount ≤ (8 : BayId).val) ∧ s.bayCount ≤ (Pin.mk 8 0).bay
    ∧ ¬([Pin.mk 3 0, Pin.mk 3 1].map fun q => q.bay).Nodup ∧ (0 : BaySet) = 0
    ∧ (¬∃ b : BayId, inSet 0x0000FF b = true ∧ s.bayCount ≤ b.val) ∧ (0x0000FF : BaySet) ≠ 0
    ∧ 16 ≤ 16 ∧ (s.group 14).defined = false ∧ (s.group 15).defined = true
    ∧ (s.group 15).bays ≠ 0
    ∧ ((s.slc.receiver.held = false ∧ s.slc.claimed < 4) ∧ payloadFits (group0 ++ [1, 0]) = true
      ∧ (9 : Tag) ≠ 0)
    ∧ (readPowerOn (group0 ++ [0]) = some ⟨⟨.group 0, []⟩, 0⟩
      ∧ (PowerOnRequest.mk ⟨.group 0, []⟩ 0).meaningful = true)
    ∧ (readTargetOnly group0 = some ⟨.group 0, []⟩
      ∧ (Target.mk (.group 0) []).meaningful = true)
    ∧ (readConfigureBay (group0 ++ [0, 0, 0, 0])).map (fun r => (r.target, r.meaningful))
        = some (⟨.group 0, []⟩, true)
    ∧ (readAck (group0 ++ [1, 0]) = some ⟨⟨.group 0, []⟩, 1⟩
      ∧ (AckRequest.mk ⟨.group 0, []⟩ 1).meaningful = true)
    ∧ s.stale [Pin.mk 23 1] 23 = true ∧ (3 : BaySet) ≠ 0
    ∧ (verdictsOf 3 fun b => if b = 0 then some .stale else none).status = .partialOk := by
  decide +kernel

/-- Table 6.1, check 3: POWER_ON, POWER_OFF, ZERO, CONFIGURE_BAY and ACK_ATTENTION of an undefined group. -/
theorem test_unknown_group :
    State.reset.resolve ⟨.group 0, []⟩ = .error .unknownGroup
    ∧ [Instr.powerOn 9 (group0 ++ [0]), .powerOff 9 group0, .zero 9 group0,
        .configureBay 9 (group0 ++ [0, 0, 0, 0]), .ackAttention 9 (group0 ++ [1, 0])].all (fun c =>
      gives (exec c State.reset) fun t =>
        decide (t.slc.answers.map (fun a => (a.status, a.content)) = [(.unknownGroup, .none)])) = true :=
  ⟨rfl, by decide +kernel⟩

/-- Stored parameters that are allowed ones; supply_mv, link_rate and range_mode at a bay that samples, and at
one with a line on the wire and one that assembles a line. -/
theorem witness_ConfigureBayStoresTheAppliedSet :
    (withBayAt 0 onBay).ParamsLegal ∧
    let p : List Byte := bay0Target ++ [0x01, 0x03, 0x00, 0x00, 0x10, 0x0E, 0x00, 0x84, 0x03, 0x00, 2]
    Arrives (withBayAt 0 onBay) p ∧ (9 : Tag) ≠ 0
    ∧ ∃ r, readConfigureBay p = some r ∧ r.meaningful = true
      ∧ (withBayAt 0 onBay).resolve r.target = .ok 1
      ∧ r.values.rangeMode = some 2 ∧ r.values.linkRate = some 230400
      ∧ ((withBayAt 0 onBay).bay 0).mu.sampling = .sampling
      ∧ ((withBayAt 0 onBay).bay 0).line.sending = none
      ∧ ((withBayAt 0 onBay).bay 0).line.assembly = none
      ∧ ((withBayAt 0 busyBay).bay 0).line.sending ≠ none
      ∧ ((withBayAt 0 busyBay).bay 0).line.assembly ≠ none :=
  have legal : Params.reset.Legal := by
    constructor <;> first | decide | (unfold stepped; decide) | (unfold currentInRange; decide)
  ⟨all_bays (P := fun y => y.params.Legal) legal legal,
    ⟨by decide, by decide, by decide⟩, by decide, _, rfl, by decide, rfl, by decide, by decide,
    by decide, by decide, by decide, by decide, by decide⟩

/-- R69: link_rate 460,800 while a line is sent and another assembled is pending in both directions, and the
rates in force stay. -/
theorem test_rate_pending : gives
    (exec (.configureBay 9 (bay0Target ++ [0x00, 0x01, 0x00, 0x00, 0x00, 0x08, 0x07, 0x00]))
      (withBayAt 0 busyBay))
    (fun t => decide ((t.bay 0).line = { busyBay.line with
      txPending := some .r460800, rxPending := some .r460800 })) = true := by decide +kernel

/-- supply_mv 4,000 at a bay that samples: the output slews and the settle interval starts with 50 ms
(R64); monitor_on with it: the monitor watches afresh (R60). -/
theorem test_configure_settles : gives
    (exec (.configureBay 9 (bay0Target ++ [0x01, 0x10, 0x00, 0x00, 0xA0, 0x0F, 1])) (withBayAt 0 onBay))
    (fun t => decide ((t.bay 0).supply.setMv = 4000) && decide ((t.bay 0).mu.settleTimer = started 50)
      && decide ((t.bay 0).mu.monitorState = .watching)
      && decide ((t.bay 0).mu.monitorAcc = Accumulator.opening 1000 none)) = true := by decide +kernel

/-- A request with every parameter present: one below its range, one above, and those between. -/
theorem witness_AppliedValuesAreAllowed :
    let v : Settings := ⟨some 2999, some 4005, some 0, some 4450, some 99, some 999, some 9, some 16,
      some 9600, some 3, some 501, some 2, some 0, some 9, some (-16384001), some (-16384002),
      some 65, some 1⟩
    v.supplyMv = some 2999 ∧ v.brownoutMv = some 4450 ∧ v.linkRate = some 9600
    ∧ v.monitorCount = some 65 ∧ v.monitorHi = some (-16384002) ∧ v.rangeMode = some 3
    ∧ { v with supplyMv := none, monitorLo := none }.supplyMv = none
    ∧ 9600 < 115200 ∧ 115200 ≤ 115200 ∧ 64 < 65 ∧ 64 ≤ 64 := by decide

/-- DEFINE_GROUP of 15, of 16, of ANY with room and without; DROP_GROUPS of each mode, of a mode without
meaning, of 16, and of an undefined entry. -/
theorem witness_GroupTableRequests :
    let full := { State.reset with groups := Vector.replicate 16 ⟨true, 1, false⟩ }
    (Arrives State.reset [15, 1, 0, 0, 1] ∧ readDefineGroup [15, 1, 0, 0, 1] = some ⟨15, 1, true⟩)
    ∧ readDefineGroup [16, 1, 0, 0, 1] = some ⟨16, 1, true⟩
    ∧ readDefineGroup [255, 1, 0, 0, 0] = some ⟨255, 1, false⟩
    ∧ (∀ n, (full.group n).defined = true) ∧ (State.reset.group 0).defined = false
    ∧ Arrives State.reset [0, 15] ∧ readDropGroups [0, 15] = some ⟨0, 15⟩
    ∧ readDropGroups [0, 16] = some ⟨0, 16⟩ ∧ readDropGroups [2, 0] = some ⟨2, 0⟩
    ∧ readDropGroups [3, 0] = some ⟨3, 0⟩ ∧ (full.group 15).defined = true :=
  ⟨⟨⟨by decide, by decide, by decide⟩, by decide⟩, by decide, by decide, by decide +kernel, by decide,
    ⟨by decide, by decide, by decide⟩, by decide, by decide, by decide, by decide, by decide⟩

/-- A SEND of one byte of text without a window, and what each check of Table 7.3 finds. -/
theorem witness_SendCreatesTheExchange :
    let p : List Byte := bay0Target ++ [0, 1, 0x41, 0]
    let r : SendRequest := { target := bay0, flags := 0, text := [0x41], window := none }
    let full := { State.reset with exchanges := List.replicate 32 (recordOf 0 none) }
    let bad : RawWindow := ⟨0, 0, 9, 0, 0, 0, 0, 0⟩
    (Arrives (withBayAt 0 onBay) p ∧ (9 : Tag) ≠ 0 ∧ readSend p = some r ∧ r.meaningful = true)
    ∧ ((withExchange 0 onBay none).exchange? 0x0101).isSome = true
    ∧ ((full.exchange? 9).isSome = false ∧ 32 ≤ full.exchanges.length)
    ∧ 120 < (List.replicate 121 (0x41 : Byte)).length ∧ (0x0D : Byte) ∈ [(0x41 : Byte), 0x0D]
    ∧ bad.spec = none ∧ r.windowSpec = .ok none ∧ (withBayAt 0 onBay).resolve bay0 = .ok 1
    ∧ State.reset.resolve { form := .group 0, pins := [] } = .error .unknownGroup :=
  ⟨⟨⟨by decide, by decide, by decide⟩, by decide, by decide, by decide⟩, by decide,
    by decide +kernel, by decide +kernel, by decide, by decide, rfl, rfl, rfl⟩

theorem witness_DispatchSendsTheHeadStep :
    let s := withExchange 3 queuedBay none
    (s.bay 3).link = .idle ∧ (s.bay 3).line.sending = none
    ∧ (s.bay 3).places = [.step (Step.fresh 0x0101 30 false)]
    ∧ s.exchange? 0x0101 = some (recordOf 3 none)
    ∧ ((withBayAt 3 onBay).bay 3).places = [] := by decide

/-- A step without a window, and with one open, scheduled AT_SEND, and scheduled AT_REPLY with delay 1 and
with delay 0, at a unit that samples and at one that does not; an exchange that reports interims; a bay
that awaits nothing. -/
theorem witness_MatchingFinalEndsTheReply :
    let at' (w : StepWindow) (spec : Option WindowSpec) :=
      withExchange 3 { awaitingBay with flight := .step { awaitingStep with window := w } } spec
    (((at' .none none).bay 3).power = .on ∧ ((at' .none none).bay 3).link = .awaiting
      ∧ ((at' .none none).bay 3).flight = .step { awaitingStep with window := .none })
    ∧ ((at' .opened (some (specOf .atSend 0))).bay 3).link = .awaiting
    ∧ (at' .scheduled (some (specOf .atSend 1))).windowOf 0x0101 = some (specOf .atSend 1)
    ∧ (at' .scheduled (some (specOf .atReply 1))).windowOf 0x0101 = some (specOf .atReply 1)
    ∧ (at' .scheduled (some (specOf .atReply 0))).windowOf 0x0101 = some (specOf .atReply 0)
    ∧ ((at' .scheduled (some (specOf .atReply 0))).bay 3).mu.sampling = .sampling
    ∧ ((withBayAt 3 { awaitingBay with mu := Mu.reset }).bay 3).mu.sampling ≠ .sampling
    ∧ ((at' .none none).exchange? 0x0101).map (fun x => x.reportInterim) = some false
    ∧ { recordOf 3 none with reportInterim := true }.reportInterim = true
    ∧ ((withBayAt 3 onBay).bay 3).link ≠ .awaiting := by decide

/-- R80, R108, R112: a matching final of a step without a window forms its final, PHONE_ERROR for a text
that begins with ERR, and the link is IDLE. -/
theorem test_final_forms_the_result : gives
    (.next ((withExchange 3 awaitingBay none).route 3 (.final 0 [0x45, 0x52, 0x52] true)))
    (fun t => decide ((t.bay 3).link = .idle) && decide ((t.bay 3).flight = .empty)
      && t.clb.entries.any fun e => decide (e.slots.get (slotOf 3) = some { resultOf 3 with
          outcome := some .phoneError, truncated := true, text := [0x45, 0x52, 0x52] })) = true := by
  decide +kernel

theorem witness_DeadlineExpiryTimesOut :
    let s := withExchange 3 awaitingBay none
    (s.bay 3).power = .on ∧ (s.bay 3).link = .awaiting ∧ (s.bay 3).flight = .step awaitingStep
    ∧ awaitingStep.deadline = .running (Timer.start 2000) ∧ awaitingStep.window = .none
    ∧ (withExchange 3 { awaitingBay with flight := .step { awaitingStep with window := .scheduled } }
        (some (specOf .atSend 1))).windowOf 0x0101 = some (specOf .atSend 1)
    ∧ (withExchange 3 { awaitingBay with flight := .step { awaitingStep with window := .scheduled } }
        (some (specOf .atReply 1))).windowOf 0x0101 = some (specOf .atReply 1)
    ∧ { awaitingStep with window := .notOpened }.window = .notOpened
    ∧ { awaitingStep with window := .opened }.deadline = .running (Timer.start 2000) := by decide

/-- An unknown tag, a DRAINING record, and an OPEN one whose step is in flight or queued. -/
theorem witness_CancelEndsThePendingSteps :
    let s := withExchange 3 awaitingBay none
    let q := withExchange 3 queuedBay none
    (Arrives s [] ∧ (0x0101 : Tag) ≠ 0) ∧ State.reset.exchange? 0x0101 = none
    ∧ ({ recordOf 3 none with pending := 0, state := .draining }.state = .draining
      ∧ { recordOf 3 none with pending := 0, state := .draining }.pending = 0)
    ∧ (s.bay 3).mu.exchangeAcc.due = false
    ∧ (∃ v, run ((allBays.filter (inSet (recordOf 3 none).pending)).map
        fun b => Instr.windowCompletion b .exchange) s = .next v)
    ∧ s.exchange? 0x0101 = some (recordOf 3 none)
    ∧ (∀ b, inSet (recordOf 3 none).pending b = true → b = 3)
    ∧ ((s.bay 3).flight = .step awaitingStep ∧ awaitingStep.tag = 0x0101 ∧ (s.bay 3).places = [])
    ∧ (q.bay 3).flight = .empty
    ∧ ((q.bay 3).places.filter (Place.isStepOf 0x0101)).length = 1 :=
  ⟨⟨⟨by decide, by decide, by decide⟩, by decide⟩, by decide, ⟨rfl, rfl⟩, by decide, ⟨_, rfl⟩,
    by decide, by decide +kernel, by decide, by decide, by decide⟩

/-- An OPEN entry of the key, none with seven occupied, and none with eight. -/
theorem witness_ResultsArePlacedByTheFirstCase :
    let es (n : Nat) := List.replicate n { entryOf 0 with sending := true }
    (∃ e ∈ [entryOf 0], e.takes 0x0101 (boardOf 0) = true)
    ∧ ((∀ e ∈ es 7, e.takes 0x0101 (boardOf 0) = false) ∧ (es 7).length < 8)
    ∧ ((∀ e ∈ es 8, e.takes 0x0101 (boardOf 0) = false) ∧ 8 ≤ (es 8).length) := by decide

/-- The state with the entry of a taken result, offered. -/
def offered : State :=
  { withExchange 0 onBay none with
    exchanges := [{ recordOf 0 none with pending := 0, state := .draining }]
    clb := { Clb.reset with entries := [entryOf 0], offer := true } }

theorem witness_AgeTickOffersTheDueHead :
    State.reset.clb.entries = [] ∧ offered.clb.entries = [entryOf 0] := by decide

theorem witness_TakingFixesTheBatch :
    offered.slc.transmitter = none ∧ offered.slc.answers = [] ∧ offered.clb.offer = true
    ∧ offered.atu.queue = [] ∧ offered.clb.entries = [entryOf 0]
    ∧ offered.exchange? 0x0101 = some { recordOf 0 none with pending := 0, state := .draining }
    ∧ State.reset.clb.offer = false ∧ State.reset.clb.entries = []
    ∧ { State.reset with slc := { Slc.reset with answers := [⟨7, 0x0B, .ok, .none⟩] } }.slc.answers ≠ []
    ∧ (withBayAt 0 onBay).level .trip = 3 := by decide

/-- A frame on the wire from a source. -/
def frameOn (source : Source) : Transmission := { bytes := [], source := source, discarding := false }

/-- A marked entry whose notice ends while a SYNC waits for it alone. -/
def batchLeaving : State :=
  { offered with
    clb := { Clb.reset with
      entries := [{ entryOf 0 with sending := true, syncMark := true }], markCount := 1 }
    slc := { Slc.reset with parked := some (.sync 7), transmitter := some (frameOn .batch) } }

/-- The notice of one of eight entries leaves the wire while a result is held, and the request parked is a
QUERY_BAY of the bay that holds it. -/
def batchLeavingHeld (dropped : Bool) : State :=
  { withBayAt 9 { onBay with link := .holding, flight := .held 0x0101 } with
    clb := { Clb.reset with
      entries := { entryOf 0 with sending := true, queryMark := true, dropped := dropped }
        :: List.replicate 7 { entryOf 0 with tag := 0x0202 }
      hold := [resultOf 9], markCount := 1 }
    slc := { Slc.reset with parked := some (.query 8 9), transmitter := some (frameOn .batch) } }

/-- R136, steps 4 and 5: the held result takes the freed entry, its bay is free, and the parked QUERY_BAY is
answered with the report after that. -/
theorem test_batch_end_places_and_answers : gives
    (exec .batchEndOfTransmission (batchLeavingHeld true))
    (fun t => decide (t.clb.hold = []) && decide (t.clb.entries.length = 8)
      && decide ((t.bay 9).flight = .empty) && decide (t.slc.parked = none)
      && decide (t.slc.answers = [⟨8, 0x0C, .ok, .bay (t.bayReport 9)⟩])) = true := by decide +kernel

/-- With nothing held and a SYNC parked; with a result held and a QUERY_BAY parked, of an entry that a reset
dropped and of one that it did not; with another notice on the wire. -/
theorem witness_BatchEndReportsAndRetires :
    (∀ dropped, (batchLeavingHeld dropped).slc.transmitter = some (frameOn .batch)
      ∧ (batchLeavingHeld dropped).clb.entries.head?.map (fun e => e.dropped) = some dropped
      ∧ (batchLeavingHeld dropped).clb.hold = [resultOf 9]
      ∧ (batchLeavingHeld dropped).clb.markCount ≤ 1
      ∧ (batchLeavingHeld dropped).slc.parked = some (.query 8 9))
    ∧ (frameOn .log).source ≠ .batch ∧ State.reset.clb.entries = [] ∧
    batchLeaving.slc.transmitter = some (frameOn .batch) ∧ (frameOn .batch).source = .batch
    ∧ batchLeaving.clb.entries = [{ entryOf 0 with sending := true, syncMark := true }]
    ∧ batchLeaving.clb.hold = [] ∧ (entryOf 0).dropped = false ∧ batchLeaving.clb.markCount = 1
    ∧ batchLeaving.slc.parked = some (.sync 7) := by decide

theorem witness_PlacementPassFillsTheEntries :
    let s := { offered with clb := { offered.clb with
      entries := List.replicate 8 (entryOf 0), hold := [resultOf 9] } }
    s.clb.entries.length ≤ 8 ∧ s.clb.hold = [resultOf 9]
    ∧ (s.clb.hold.map fun r => (r.tag, r.bay)).Nodup := by decide

/-- Table 8.2, case 1: a held result whose key has an OPEN entry is merged into it, and its bay is free again. -/
theorem test_held_result_placed : gives
    (exec .heldResultPlacement { withBayAt 1 { onBay with link := .holding, flight := .held 0x0101 } with
      clb := { Clb.reset with entries := List.replicate 8 (entryOf 0), hold := [resultOf 1] } })
    (fun t => decide (t.clb.hold = []) && decide ((t.bay 1).flight = .empty)
      && decide ((t.bay 1).link = .idle)
      && t.clb.entries.any fun e => decide (e.slots.get 1 = some (resultOf 1))) = true := by
  decide +kernel

/-- A SYNC with a request parked, with no entry occupied, and with one; a parked request of each kind
with no entry marked. -/
theorem witness_SyncParksUntilNothingIsMarked :
    (Arrives State.reset [] ∧ (7 : Tag) ≠ 0) ∧ batchLeaving.slc.parked ≠ none
    ∧ (State.reset.slc.parked = none ∧ State.reset.clb.entries = [])
    ∧ (offered.slc.parked = none ∧ offered.clb.entries = [entryOf 0])
    ∧ State.reset.clb.markCount = 0
    ∧ { State.reset with slc := { Slc.reset with parked := some (.query 7 0) } }.slc.parked
        = some (.query 7 0) :=
  ⟨⟨⟨by decide, by decide, by decide⟩, by decide⟩, by decide, by decide, by decide, by decide,
    by decide⟩

/-- The last bay of a station of 16 and the first absent one; a bay with a result in an entry and one
without. -/
theorem witness_QueryBayAnswersOrParks :
    let s := { offered with bayCount := 16 }
    (Arrives s [BitVec.ofNat 8 16] ∧ (7 : Tag) ≠ 0 ∧ 16 < 256 ∧ s.bayCount ≤ 16)
    ∧ ((15 : BayId).val = 15 ∧ 15 < s.bayCount)
    ∧ (∃ e ∈ s.clb.entries, e.board = boardOf 0 ∧ (e.slots.get (slotOf 0)).isSome = true)
    ∧ (¬∃ e ∈ s.clb.entries, e.board = boardOf 15 ∧ (e.slots.get (slotOf 15)).isSome = true)
    ∧ s.slc.parked = none
    ∧ ((withBayAt 3 awaitingBay).bay 3).flight = .step awaitingStep
    ∧ ((withBayAt 3 awaitingBay).bay 3).places.length ≤ 4 :=
  ⟨⟨⟨by decide, by decide, by decide⟩, by decide, by decide, by decide⟩, by decide, by decide,
    by decide, by decide, by decide, by decide⟩

theorem witness_RepeatedRaiseIsCounted :
    (queuedNotice.flag 23 .calibrated).state ≠ .clear := by decide

/-- A class that qualifies at the threshold, one that does not, and a queue in order. -/
theorem witness_FreshRaiseIsQueuedIfItQualifies :
    (queuedNotice.flag 0 .trip).state = .clear
    ∧ (1 ≤ queuedNotice.level .trip ∧ queuedNotice.atu.threshold ≤ queuedNotice.level .trip)
    ∧ ¬(State.reset.atu.threshold ≤ State.reset.level .trip)
    ∧ ((0 : BayId), AttClass.trip) ∉ queuedNotice.atu.queue
    ∧ (∀ x ∈ queuedNotice.atu.queue,
        (queuedNotice.flag x.1 x.2).position < queuedNotice.atu.nextPosition)
    ∧ queuedNotice.atu.queue.Pairwise
        fun x y => queuedNotice.level y.2 ≤ queuedNotice.level x.2 := by decide

theorem witness_AckClearsAllButHeldFlags :
    let s := withBayAt 0 { offBay with power := .tripped }
    Arrives s (bay0Target ++ [0x10, 0]) ∧ (9 : Tag) ≠ 0
    ∧ readAck (bay0Target ++ [0x10, 0]) = some ⟨bay0, 0x0010⟩
    ∧ (AckRequest.mk bay0 0x0010).meaningful = true ∧ s.resolve bay0 = .ok 1
    ∧ (s.bay 0).power = .tripped ∧ (s.flag 0 .trip).state = .clear
    ∧ (queuedNotice.flag 23 .calibrated).state ≠ .clear :=
  ⟨⟨by decide, by decide, by decide⟩, by decide, by decide, by decide, rfl, by decide, by decide,
    by decide⟩

theorem witness_NoticesNotifyTheirFlags :
    (queuedNotice.slc.transmitter = none ∧ queuedNotice.slc.answers = []
      ∧ queuedNotice.atu.queue = [(23, .calibrated)] ∧ 1 ≤ queuedNotice.level .calibrated
      ∧ queuedNotice.level .calibrated ≤ 3 ∧ queuedNotice.clb.offer = false)
    ∧ { queuedNotice with slc := { Slc.reset with
          transmitter := some (frameOn (.attention 23 .calibrated)) } }.slc.transmitter
        = some (frameOn (.attention 23 .calibrated))
    ∧ (State.reset.atu.queue = [] ∧ batchLeaving.slc.transmitter ≠ none)
    ∧ ({ queuedNotice with clb := offered.clb }.clb.offer = true ∧ queuedNotice.level .calibrated ≠ 3) := by
  decide

/-- R171: a batch goes ahead of a notice below level 3, and a notice of level 3 ahead of a batch. -/
theorem test_sources_in_order :
    let s := { offered with atu := queuedNotice.atu }
    let s' := { offered with atu := ({ State.reset with
      atu := { Atu.reset with threshold := 1 } }.raiseFlag 23 .trip .none).atu }
    let from' (src : Source) (t : State) : Bool := t.slc.transmitter.any fun f => decide (f.source = src)
    gives (exec .takeAttentionNotice s) (fun t => decide (t.slc.transmitter = none)) = true
    ∧ gives (exec .takeBatchEntry s) (from' .batch) = true
    ∧ gives (exec .takeBatchEntry s') (fun t => decide (t.slc.transmitter = none)) = true
    ∧ gives (exec .takeAttentionNotice s') (from' (.attention 23 .trip)) = true := by decide +kernel

/-- An answer queued; a log line alone; a batch offered and a notice queued ahead of a log line; link bounds
met. -/
theorem witness_AnswersFirstAndLogLast :
    let a : Answer := ⟨7, 0x0B, .ok, .none⟩
    let l : LogLine := ⟨3, 30, false, [0x41]⟩
    ({ State.reset with slc := { Slc.reset with answers := [a] } }.slc.answers = [a]
      ∧ State.reset.slc.transmitter = none)
    ∧ (State.reset.atu.queue = [] ∧ State.reset.clb.offer = false
      ∧ { State.reset with atu := { Atu.reset with ring := [l] } }.atu.ring = [l])
    ∧ (frameOn .answer).source = .answer ∧ (frameOn .log).source = .log
    ∧ (State.reset.slc.answers = [] ∧ State.reset.atu.ring = [] ∧ offered.clb.offer = true)
    ∧ (1 ≤ queuedNotice.level .calibrated ∧ queuedNotice.level .calibrated ≤ 3)
    ∧ batchLeaving.LinkBounds :=
  ⟨by decide, by decide, by decide, by decide, by decide, by decide,
    ⟨by decide, by decide, by decide⟩⟩

/-- A payload with a byte too many, one that is right, a mode without meaning, and the kinds either side
of the request kinds. -/
theorem witness_RequestChecksInOrder :
    (Arrives State.reset [1] ∧ (readEmpty [1]).isSome = false) ∧ (readEmpty []).isSome = true
    ∧ ((readDropGroups [3, 0]).isSome = true
      ∧ (readDropGroups [3, 0]).any DropGroupsRequest.meaningful = false)
    ∧ (0x00 : Byte).toNat = 0 ∧ 14 < (0x0F : Byte).toNat :=
  ⟨⟨⟨by decide, by decide, by decide⟩, by decide⟩, by decide, by decide, by decide, by decide⟩

theorem witness_IdentifyTellsThePart : Arrives State.reset [] ∧ (0x0044 : Tag) ≠ 0 :=
  ⟨⟨by decide, by decide, by decide⟩, by decide⟩

/-- The threshold present with a value below its range and a flag raised; nothing present. -/
theorem witness_ConfigureStationClampsAndApplies :
    Arrives queuedNotice [0x01, 0] ∧ (9 : Tag) ≠ 0
    ∧ readStationSettings [0x01, 0] = some ⟨0x01, some 0, none, none, none, none⟩
    ∧ (StationSettings.mk 0x01 (some 0) none none none none).meaningful = true
    ∧ (queuedNotice.flag 23 .calibrated).state = .raised
    ∧ readStationSettings [0x00] = some ⟨0x00, none, none, none, none, none⟩ :=
  ⟨⟨by decide, by decide, by decide⟩, by decide, by decide, by decide, by decide, by decide⟩

theorem witness_StationAndUsbResets : Arrives batchLeaving [] ∧ (9 : Tag) ≠ 0
    ∧ batchLeaving.slc.parked = some (.sync 7) :=
  ⟨⟨by decide, by decide, by decide⟩, by decide, by decide⟩

/-- A closed sensor at the last bay of a station of 8, and at the first absent one. -/
theorem witness_PowerOnResetLeavesTheResetValues :
    (((withBayAt 7 offBay).bay 7).sensorClosed = true ∧ (7 : BayId).val < 8)
    ∧ ((withBayAt 8 offBay).bay 8).sensorClosed = true ∧ ¬(8 : BayId).val < 8 := by decide

/-- HUNT; a held frame; the lengths 2 and 513; a running gap timer. -/
theorem witness_ReceiverHuntsAndDiscards :
    (State.reset.slc.receiver = .hunting ∧ State.reset.slc.receiver.held = false)
    ∧ (Receiver.holding [1, 0, 0]).held = true
    ∧ (2 + 256 * 0 < 3 ∧ (0x02 : Byte).toNat = 2 ∧ 512 < (0x01 : Byte).toNat + 256 * (0x02 : Byte).toNat)
    ∧ Receiver.synced.gap.isSome = true := by decide

/-- The shortest body and the longest, with all places free and with none; a held frame; a request that
arrives, and the kinds either side of the request kinds. -/
theorem witness_GoodFrameIsTakenWhole :
    let a : Answer := ⟨7, 0x0B, .ok, .none⟩
    let busy := { State.reset with slc := { Slc.reset with answers := List.replicate 4 a } }
    (State.reset.slc.receiver = .hunting ∧ State.reset.slc.claimed < 4)
    ∧ (busy.slc.receiver = .hunting ∧ 4 ≤ busy.slc.claimed)
    ∧ 3 ≤ ([1, 0x44, 0] : List Byte).length ∧ (List.replicate 512 (0 : Byte)).length ≤ 512
    ∧ { State.reset with slc := { Slc.reset with receiver := .holding [1, 0x44, 0] } }.slc.receiver
        = Receiver.holding [1, 0x44, 0]
    ∧ (State.reset.slc.receiver.held = false ∧ payloadFits [] = true)
    ∧ (0x00 : Byte).toNat = 0 ∧ 14 < (0x0F : Byte).toNat := by decide +kernel

end Sys2Proof.Tests
end

section
/-! PROOF. The candidate offsets of a calibration (R36), and the end of one as a command (R37). -/

namespace Sys2Proof.Machine

/-! ## The division of R36 -/

/-- From 0 up, a candidate is the sum plus 128, divided by 256 and rounded down. At 0 itself the sign is
0, and so is the quotient. -/
theorem candidateOf_of_nonneg {sum : Int} (h : 0 ≤ sum) : candidateOf sum = (sum + 128) / 256 := by
  obtain rfl | hpos := h.eq_or_lt
  · decide
  · have hsign : sum.sign = 1 := Int.sign_eq_one_of_pos hpos
    have habs : (sum.natAbs : Int) = sum := Int.natAbs_of_nonneg h
    simp [candidateOf, hsign, habs]

/-- Rounding is symmetric about 0, so a half goes away from it on both sides. -/
theorem candidateOf_neg (sum : Int) : candidateOf (-sum) = -candidateOf sum := by
  simp [candidateOf]

theorem candidateOf_of_neg {sum : Int} (h : sum < 0) : candidateOf sum = -((-sum + 128) / 256) := by
  calc candidateOf sum = -candidateOf (-sum) := by rw [candidateOf_neg, neg_neg]
    _ = -((-sum + 128) / 256) := by rw [candidateOf_of_nonneg (by omega)]

/-- The sums of 256 raw codes, −8388608 to 8388352, give candidates that are raw codes again. -/
theorem candidateOf_range {sum : Int} (hlo : -8388608 ≤ sum) (hhi : sum ≤ 8388352) :
    -32768 ≤ candidateOf sum ∧ candidateOf sum ≤ 32767 := by
  obtain h | h := le_or_gt 0 sum
  · rw [candidateOf_of_nonneg h]; omega
  · rw [candidateOf_of_neg h]; omega

/-! ## CALIBRATION_END -/

theorem exec_calibrationEnd (b : BayId) (s : State) :
    exec (.calibrationEnd b) s = .next (s.endCalibration b) := rfl

/-- The end of a complete calibration leaves CALIBRATED at the bay with the record's class data,
whatever the state of the flag before. -/
theorem endCalibration_calibrated_data {s : State} {b : BayId} {k : Calibration}
    (hs : (s.bay b).mu.sampling = .calibrating) (hk : (s.bay b).mu.calibration = some k)
    (hc : k.complete = true) :
    ((s.endCalibration b).flag b .calibrated).data = calibrationData k := by
  obtain ⟨-, -, hdata⟩ := raiseFlag_raised (b := b) (c := .calibrated) (d := calibrationData k)
    (s := s.modBay b fun y => { y with mu := y.mu.calibrated k })
  rw [endCalibration_complete hs hk hc]
  exact hdata

/-- Settles O19: the two signs and the range by the division of R36, and the end of a calibration by the
class data that its raise of CALIBRATED carries. -/
theorem candidateRoundsHalvesAway : Obligations.CandidateRoundsHalvesAway := by
  refine ⟨fun sum => ⟨candidateOf_of_nonneg, candidateOf_of_neg, candidateOf_range⟩, ?_⟩
  intro b s k hs hk hc
  exact ⟨s.endCalibration b, _, exec_calibrationEnd b s, endCalibration_calibrated_data hs hk hc⟩

end Sys2Proof.Machine
end

section
/-! PROOF. The summary of a completed exchange window by the tests of Table 3.4 (R53), and its way to the
step whose window it is (R44, R107). -/

namespace Sys2Proof.Machine

/-! ## The tests of Table 3.4 -/

/-- An EMPTY window is one without a sample (R51). -/
theorem Accumulator.figures_empty_iff (a : Accumulator) : a.figures.empty = true ↔ a.n = 0 := by
  unfold Accumulator.figures
  split <;> simp [*]

section
variable {w : WindowSpec} {f : Figures}

theorem WindowSpec.reasons_of_empty (h : f.empty = true) :
    w.reasons f = { Reasons.none with empty := true } := by
  simp [WindowSpec.reasons, h]

theorem WindowSpec.reasons_empty_of_sampled (h : f.empty = false) : (w.reasons f).empty = false := by
  simp [WindowSpec.reasons, h]

theorem WindowSpec.reasons_low_iff (h : f.empty = false) :
    (w.reasons f).low = true ↔ f.mean < w.lo := by
  simp [WindowSpec.reasons, h]

theorem WindowSpec.reasons_high_iff (h : f.empty = false) :
    (w.reasons f).high = true ↔ w.hi < f.mean := by
  simp [WindowSpec.reasons, h]

/-- A ceiling that is off fails no window. -/
theorem WindowSpec.reasons_peak_iff (h : f.empty = false) :
    (w.reasons f).peak = true ↔ ∃ c, w.peakCeiling = some c ∧ c < f.max := by
  cases hc : w.peakCeiling <;> simp [WindowSpec.reasons, h, hc]

theorem WindowSpec.reasons_rms_iff (h : f.empty = false) :
    (w.reasons f).rms = true ↔ ∃ c, w.rmsCeiling = some c ∧ c < f.rms := by
  cases hc : w.rmsCeiling <;> simp [WindowSpec.reasons, h, hc]

end

/-! ## The summary (R53) -/

section
variable {a : Accumulator} {w : WindowSpec}

theorem Accumulator.completed_length : a.completed.length = a.length := rfl

theorem Accumulator.completed_figures : a.completed.figures = some a.figures := rfl

theorem Accumulator.completed_reasons (h : a.spec = some w) :
    a.completed.reasons = w.reasons a.figures := by
  simp [Accumulator.completed, h]

theorem Accumulator.completed_verdict :
    a.completed.verdict = if a.completed.reasons = Reasons.none then .pass else .fail := rfl

theorem Accumulator.completed_pass_iff :
    a.completed.verdict = .pass ↔ a.completed.reasons = Reasons.none := by
  rw [completed_verdict]
  split <;> simp [*]

theorem Accumulator.completed_pass_or_fail :
    a.completed.verdict = .pass ∨ a.completed.verdict = .fail := by
  rw [completed_verdict]
  split <;> simp

/-- EMPTY alone fails a window without a sample, whatever its limits. -/
theorem Accumulator.completed_of_no_sample (h : a.spec = some w) (hn : a.n = 0) :
    a.completed.verdict = .fail ∧ a.completed.reasons = { Reasons.none with empty := true } := by
  have hr : a.completed.reasons = { Reasons.none with empty := true } := by
    rw [completed_reasons h, WindowSpec.reasons_of_empty (a.figures_empty_iff.mpr hn)]
  have hne : a.completed.reasons ≠ Reasons.none := by rw [hr]; decide
  exact ⟨by rw [completed_verdict, if_neg hne], hr⟩

end

/-! ## WINDOW_COMPLETION of an exchange window (R44, R107) -/

theorem exec_exchangeCompletion (b : BayId) (s : State) :
    exec (.windowCompletion b .exchange) s = .next (s.completeExchange b) := rfl

/-- The step whose window is OPEN keeps the summary; the accumulator is given back. -/
theorem exchangeCompleted_opened {y : Bay} {st : Step} (hf : y.flight = .step st)
    (hw : st.window = .opened) :
    y.exchangeCompleted = { y with
      mu := { y.mu with exchangeAcc := y.mu.exchangeAcc.freed }
      flight := .step { st with window := .done y.mu.exchangeAcc.completed } } := by
  simp [Bay.exchangeCompleted, Bay.recordSummary, hf, hw]

/-- No final is formed before the reply phase is over (R112). -/
theorem formResult_of_no_reply {s : State} {b : BayId} {st : Step}
    (hf : (s.bay b).flight = .step st) (hr : st.reply = none) : s.formResult b = s := by
  simp [State.formResult, hf, hr]

/-- A completion before the reply hands the summary to the step, and does nothing else. -/
theorem completeExchange_of_no_reply {s : State} {b : BayId} {st : Step}
    (hd : (s.bay b).mu.exchangeAcc.due = true) (hf : (s.bay b).flight = .step st)
    (hw : st.window = .opened) (hr : st.reply = none) :
    s.completeExchange b = s.setBay b { s.bay b with
      mu := { (s.bay b).mu with exchangeAcc := (s.bay b).mu.exchangeAcc.freed }
      flight := .step { st with window := .done (s.bay b).mu.exchangeAcc.completed } } := by
  have hbay : ((s.modBay b Bay.exchangeCompleted).bay b).flight
      = .step { st with window := .done (s.bay b).mu.exchangeAcc.completed } := by
    rw [modBay_bay_same, exchangeCompleted_opened hf hw]
  rw [State.completeExchange, if_pos hd, formResult_of_no_reply hbay hr, modBay_eq,
    exchangeCompleted_opened hf hw]

/-- Settles O25: the summary by the tests of Table 3.4, each with its own reason, and the completion by
the step that keeps it. -/
theorem verdictFollowsTheTests : Obligations.VerdictFollowsTheTests := by
  constructor
  · intro a w h
    refine ⟨Accumulator.completed_length, Accumulator.completed_figures,
      Accumulator.completed_of_no_sample h, fun hn => ?_, Accumulator.completed_pass_iff,
      Accumulator.completed_pass_or_fail⟩
    have hs : a.figures.empty = false := by simpa [hn] using a.figures_empty_iff
    rw [Accumulator.completed_reasons h]
    exact ⟨WindowSpec.reasons_empty_of_sampled hs, WindowSpec.reasons_low_iff hs,
      WindowSpec.reasons_high_iff hs, WindowSpec.reasons_peak_iff hs, WindowSpec.reasons_rms_iff hs⟩
  · intro b s st hd hf hw hr
    refine ⟨s.completeExchange b, exec_exchangeCompletion b s, ?_⟩
    rw [completeExchange_of_no_reply hd hf hw hr, setBay_bay_same]

end Sys2Proof.Machine
end

section
/-! PROOF. A raise of a raised flag (R149). -/

namespace Sys2Proof.Machine

variable {s : State} {b : BayId} {c : AttClass} {d : ClassData}

theorem setFlag_eq {f : Flag} :
    s.setFlag b c f = { s with atu := { s.atu with flags := (s.setFlag b c f).atu.flags } } := rfl

/-- RAISED, NOTIFYING and NOTIFIED flags all take the raise of R149; only a CLEAR one takes R148's. -/
theorem raiseFlag_of_not_clear (h : (s.flag b c).state ≠ .clear) :
    s.raiseFlag b c d = s.raiseAgain b c d := by
  unfold State.raiseFlag
  cases hst : (s.flag b c).state with
  | clear => exact absurd hst h
  | raised | notifying | notified => rfl

/-- A repeated raise writes the table of flags alone, so it makes no notice entry and takes no raise
position. -/
theorem raiseFlag_frame_again (h : (s.flag b c).state ≠ .clear) :
    s.raiseFlag b c d = { s with atu := { s.atu with flags := (s.raiseFlag b c d).atu.flags } } := by
  rw [raiseFlag_of_not_clear h]
  exact setFlag_eq

/-- Settles O49: the raised flag by the equation of a repeated raise, the other flags by a raise's frame,
and the queue by the frame of a repeated raise. -/
theorem repeatedRaiseIsCounted : Obligations.RepeatedRaiseIsCounted := by
  intro b c d s h
  have hframe := raiseFlag_frame_again (d := d) h
  have hqueue : (s.raiseFlag b c d).atu.queue = s.atu.queue := by rw [hframe]
  exact ⟨raiseFlag_flag_again h, hqueue, fun _ _ hne => raiseFlag_flag_other hne, hframe⟩

end Sys2Proof.Machine
end

section
/-! PROOF. IDENTIFY (R173): its taking, and the values of Table 10.6 as bytes. -/

namespace Sys2Proof.Machine

open Sys2Proof.Claims

variable {s : State} {kind : Byte} {tag : Tag} {payload : List Byte}

/-! ## The arrival -/

/-- The law of the arrival in the terms of the statements. -/
theorem arrives_atTaking {take : State → State} (h : Arrives s payload) :
    s.arrives kind tag payload take = take (atTaking s) := by
  obtain ⟨hheld, hroom, hfits⟩ := h
  exact arrives_taken hheld hroom hfits

@[simp] theorem atTaking_bayCount : (atTaking s).bayCount = s.bayCount := rfl

/-! ## The request -/

theorem exec_identify : exec (.identify tag payload) s
    = .next (s.arrives 0x01 tag payload (State.requestIdentify tag payload)) := rfl

/-- The empty payload has no code or bit to lack a meaning, so a tag other than 0 passes the checks. -/
theorem requestIdentify_empty (h : tag ≠ 0) :
    s.requestIdentify tag [] = s.answer 0x01 tag .ok (.identity s.bayCount) :=
  checked_passed h rfl

/-! ## Table 10.6 as bytes (section 11.1) -/

theorem bytesOf_one (n : Nat) : bytesOf 1 n = [BitVec.ofNat 8 n] := rfl

theorem bytesOf_vendorCode : bytesOf 2 Config.vendorCode = [0xB1, 0x56] := by decide

theorem bytesOf_partCode : bytesOf 2 Config.partCode = [0x24, 0x60] := by decide

/-- Every value but the bay count is a constant of the part. -/
theorem identity_bytes (n : Nat) : Content.bytes (.identity n)
    = [0xB1, 0x56, 0x24, 0x60, 1, BitVec.ofNat 8 n, 4, 32, 8, 16, 64, 120] := by
  rw [Content.bytes, bytesOf_vendorCode, bytesOf_partCode]
  simp only [bytesOf_one]
  rfl

/-- Settles O55: the arrival, then the checks that an empty payload under a good tag passes, and the
bytes of the identity. -/
theorem identifyTellsThePart : Obligations.IdentifyTellsThePart := by
  intro tag s harr htag
  refine ⟨?_, identity_bytes s.bayCount⟩
  rw [exec_identify, arrives_atTaking harr, requestIdentify_empty htag, atTaking_bayCount]

end Sys2Proof.Machine
end

section
/-! PROOF. The ends of steps as handovers of their finals (R112, R116): what the end of every step of a bay
does to the exchange table, the Collation Buffer and the bay, said once for removal, trips, POWER_OFF and
reboots. -/

namespace Sys2Proof.Machine

open Sys2Proof.Claims

variable {s : State} {b : BayId} {y : Bay} {st : Step} {cause : Outcome} {r : Result}
  {rs : List Result}

/-! ## Handovers one after another -/

theorem handOvers_append (xs ys : List Result) (s : State) :
    handOvers (xs ++ ys) s = ((handOvers ys (handOvers xs s).1).1,
      (handOvers xs s).2 ++ (handOvers ys (handOvers xs s).1).2) := by
  induction xs generalizing s with
  | nil => rfl
  | cons x xs ih => simp [handOvers, ih]

theorem handOvers_setBay : handOvers rs (s.setBay b y)
    = ((handOvers rs s).1.setBay b y, (handOvers rs s).2) := by
  induction rs generalizing s with
  | nil => rfl
  | cons x xs ih => simp [handOvers, handOver_setBay, ih]

theorem handOvers_length : (handOvers rs s).2.length = rs.length := by
  induction rs generalizing s with
  | nil => rfl
  | cons x xs ih => simp [handOvers, ih]

theorem handOvers_eq : (handOvers rs s).1
    = { s with exchanges := (handOvers rs s).1.exchanges, clb := (handOvers rs s).1.clb } := by
  induction rs generalizing s with
  | nil => rfl
  | cons x xs ih =>
    simp only [handOvers]
    rw [ih, handOver_eq]

@[simp] theorem handOvers_bay : (handOvers rs s).1.bay b = s.bay b := by
  rw [handOvers_eq]; rfl

/-! ## The window specification of an exchange outlives handovers -/

theorem find?_map_tag (xs : List Exchange) (t u : Tag) (f : Exchange → Exchange)
    (hf : ∀ x, (f x).tag = x.tag) :
    (xs.map fun x => if x.tag = t then f x else x).find? (fun x => decide (x.tag = u))
      = (xs.find? fun x => decide (x.tag = u)).map fun x => if x.tag = t then f x else x := by
  rw [List.find?_map]
  congr 2
  funext x
  simp only [Function.comp]
  split <;> simp [hf]

/-- A record's change under its tag is found under its tag. -/
theorem exchange?_modExchange {t u : Tag} {f : Exchange → Exchange} (hf : ∀ x, (f x).tag = x.tag) :
    (s.modExchange t f).exchange? u
      = (s.exchange? u).map fun x => if x.tag = t then f x else x :=
  find?_map_tag s.exchanges t u f hf

theorem exchange?_tag {t : Tag} {x : Exchange} (h : s.exchange? t = some x) : x.tag = t := by
  simpa using List.find?_some h

theorem exchange?_mem {t : Tag} {x : Exchange} (h : s.exchange? t = some x) : x ∈ s.exchanges :=
  List.mem_of_find?_eq_some h

theorem exchange?_of_exchanges {t : State} (h : t.exchanges = s.exchanges) (u : Tag) :
    t.exchange? u = s.exchange? u := by
  unfold State.exchange?; rw [h]

theorem finalFormed_tag (x : Exchange) (b : BayId) : (x.finalFormed b).tag = x.tag := rfl

theorem handOver_exchanges : (s.handOver r).1.exchanges
    = s.exchanges.map fun x => if x.tag = r.tag then x.finalFormed r.bay else x :=
  collate_exchanges

theorem exchange?_handOver (u : Tag) : (s.handOver r).1.exchange? u
    = (s.exchange? u).map fun x => if x.tag = r.tag then x.finalFormed r.bay else x := by
  rw [exchange?_of_exchanges (s := s.modExchange r.tag fun x => x.finalFormed r.bay)
    handOver_exchanges]
  exact exchange?_modExchange fun x => finalFormed_tag x r.bay

theorem windowOf_of_exchanges {t : State} (h : t.exchanges = s.exchanges) (u : Tag) :
    t.windowOf u = s.windowOf u := by
  unfold State.windowOf; rw [exchange?_of_exchanges h]

@[simp] theorem windowOf_handOver (u : Tag) : (s.handOver r).1.windowOf u = s.windowOf u := by
  unfold State.windowOf
  rw [exchange?_handOver]
  cases s.exchange? u with
  | none => rfl
  | some x =>
    simp only [Option.map_some, Option.bind_some]
    split <;> rfl

@[simp] theorem windowOf_handOvers (u : Tag) : (handOvers rs s).1.windowOf u = s.windowOf u := by
  induction rs generalizing s with
  | nil => rfl
  | cons x xs ih => simp [handOvers, ih]

@[simp] theorem windowOf_setBay (u : Tag) : (s.setBay b y).windowOf u = s.windowOf u := rfl

/-! ## A close request (R45) -/

/-- The window of a step in flight after a close request: an OPEN one takes the summary that the
accumulator gives. -/
def Bay.closedWindow (y : Bay) (st : Step) : StepWindow :=
  match st.window, y.mu.exchangeAcc.closing with
  | .opened, some w => .done w
  | w, _ => w

/-- The flight slot after a close request. -/
def Bay.closedFlight (y : Bay) : Flight :=
  match y.flight with
  | .step st => .step { st with window := y.closedWindow st }
  | .empty => .empty
  | .held t => .held t

theorem Accumulator.freed_of_free {a : Accumulator} (h : a.state = .free) : a.freed = a := by
  cases a; simp_all [Accumulator.freed]

theorem Accumulator.closing_none {a : Accumulator} : a.closing = none ↔ a.state = .free := by
  unfold Accumulator.closing
  split <;> simp_all

/-- All that a close request does: the accumulator is given back, and an OPEN step keeps the summary. -/
theorem closeWindow_eq (y : Bay) : y.closeWindow = { y with
    mu := { y.mu with exchangeAcc := y.mu.exchangeAcc.freed }, flight := y.closedFlight } := by
  unfold Bay.closeWindow Bay.closedFlight Bay.closedWindow
  cases hc : y.mu.exchangeAcc.closing with
  | none =>
    rw [Accumulator.freed_of_free (Accumulator.closing_none.mp hc)]
    cases y with | _ => 
    simp only
    split <;> simp_all
  | some w =>
    unfold Bay.recordSummary
    cases hf : y.flight with
    | step st =>
      obtain ⟨_, _, _, _, _, _, _, _, _, _, w'⟩ := st
      cases w' <;> simp
    | empty | held t => simp

/-- The summary a step brings to its final after a close request is that of Table 7.9. -/
theorem closedWindow_summary (st : Step) :
    ((s.bay b).closedWindow st).settled.summary (s.windowOf st.tag) = flightWindow s b st := by
  unfold Bay.closedWindow flightWindow Accumulator.closing Accumulator.due
  cases st.window with
  | opened =>
    dsimp only
    cases hs : (s.bay b).mu.exchangeAcc.state with
    | running =>
      by_cases hd : (s.bay b).mu.exchangeAcc.length ≤ (s.bay b).mu.exchangeAcc.elapsed
      · simp [hd, StepWindow.settled, StepWindow.summary]
      · simp [hd, StepWindow.settled, StepWindow.summary, Accumulator.aborted]
    | free | starting => rfl
  | none | scheduled | done w | notOpened => rfl

@[simp] theorem ended_tag (st : Step) : st.ended.tag = st.tag := rfl

theorem replyAt_eq (st : Step) (cause : Outcome) : st.replyAt cause = replyOrCause st cause := by
  unfold Step.replyAt replyOrCause
  cases st.reply <;> rfl

/-! ## The end of the step in flight -/

/-- A flight slot after its step has ended: empty when the final was placed. -/
def Flight.after (fl : Flight) (ms : List Bool) : Flight :=
  match fl with
  | .step st => if ms.head? = some true then .empty else .held st.tag
  | .empty => .empty
  | .held u => .held u

/-- A bay whose step in flight has ended, `ms` telling whether its final was placed. -/
def Bay.flightEnded (y : Bay) (ms : List Bool) : Bay :=
  { y with
    mu := { y.mu with exchangeAcc := y.mu.exchangeAcc.freed }
    flight := y.flight.after ms
    windowDelay := if y.flight.isStep then none else y.windowDelay }

/-- The final of an ended step in flight is that of Tables 7.8 and 7.9. -/
theorem finalOf_closed {t : State} (ht : ∀ u, t.windowOf u = s.windowOf u) :
    t.finalOf b (Step.ended { st with window := (s.bay b).closedWindow st })
        (Step.replyAt { st with window := (s.bay b).closedWindow st } cause)
      = finalResult b st (replyOrCause st cause) (flightWindow s b st) := by
  have hw := closedWindow_summary (s := s) (b := b) st
  have hr : Step.replyAt { st with window := (s.bay b).closedWindow st } cause
      = replyOrCause st cause := replyAt_eq st cause
  simp only [State.finalOf, finalResult, Step.ended, ht, hw, hr]

/-- The end of the step in flight hands its final over and leaves the bay as said; where none is in
flight, only an open window is closed (R116). -/
theorem endFlight_eq : s.endFlight b cause
    = (handOvers (flightFinals s b cause) s).1.setBay b
        ((s.bay b).flightEnded (handOvers (flightFinals s b cause) s).2) := by
  have hfl : ((s.modBay b Bay.closeWindow).bay b).flight = (s.bay b).closedFlight := by
    rw [modBay_bay_same, closeWindow_eq]
  unfold State.endFlight flightFinals
  unfold Bay.closedFlight at hfl
  cases hf : (s.bay b).flight with
  | step st =>
    simp only [hf] at hfl
    simp only [hfl, formFlight_eq, handOvers]
    rw [finalOf_closed (s := s) (t := s.modBay b Bay.closeWindow) fun _ => rfl]
    simp [modBay_eq, handOver_setBay, closeWindow_eq, Bay.flightEnded, Bay.afterFlight, Flight.after,
      hf, Flight.isStep]
  | empty | held t =>
    simp [handOvers, modBay_eq, closeWindow_eq, Bay.closedFlight, Bay.flightEnded, Flight.after, hf,
      Flight.isStep]

/-! ## The end of the queued steps -/

/-- The final of an ended queued step, if the place holds a step. -/
def placeFinal? (s : State) (b : BayId) (cause : Outcome) : Place → Option Result
  | .step st => some (finalResult b st (replyOrCause st cause) (queuedWindow s st))
  | .held _ => none

theorem queuedFinals_eq : queuedFinals s b cause
    = (s.bay b).places.filterMap (placeFinal? s b cause) := by
  unfold queuedFinals
  congr 1

theorem settled_summary (st : Step) :
    st.window.settled.summary (s.windowOf st.tag) = queuedWindow s st := by
  unfold queuedWindow neverOpened
  cases st.window <;> rfl

theorem finalOf_ended (st : Step) : s.finalOf b st.ended (st.replyAt cause)
    = finalResult b st (replyOrCause st cause) (queuedWindow s st) :=
  congrArg₂ (finalResult b st) (replyAt_eq st cause) (settled_summary st)

theorem placeFinal?_of_windowOf {t : State} (h : ∀ u, t.windowOf u = s.windowOf u) :
    placeFinal? t b cause = placeFinal? s b cause := by
  funext p
  cases p with
  | held u => rfl
  | step st => simp only [placeFinal?, queuedWindow, neverOpened, h]

/-- The queued steps end in queue order: their finals are handed over one after another. -/
theorem endPlaces_eq {ps : List Place} : State.endPlaces b cause ps s
    = ((handOvers (ps.filterMap (placeFinal? s b cause)) s).1,
        placesAfter ps (handOvers (ps.filterMap (placeFinal? s b cause)) s).2) := by
  induction ps generalizing s with
  | nil => rfl
  | cons p ps ih =>
    cases p with
    | held t => simp [State.endPlaces, ih, placeFinal?, placesAfter, List.filterMap_cons]
    | step st =>
      simp only [State.endPlaces, ih, List.filterMap_cons, placeFinal?, handOvers, ← finalOf_ended,
        placeFinal?_of_windowOf (s := s) fun u => windowOf_handOver (r := _) u]
      cases (s.handOver (s.finalOf b st.ended (st.replyAt cause))).2 <;> simp [placesAfter]

/-! ## The end of every step of a bay -/

/-- A bay whose steps have all ended, `ms` telling of each final in order whether it was placed. -/
def Bay.stepsEnded (y : Bay) (ms : List Bool) : Bay :=
  { y.flightEnded ms with
    places := placesAfter y.places (ms.drop (if y.flight.isStep then 1 else 0)) }

theorem flightFinals_length :
    (flightFinals s b cause).length = if (s.bay b).flight.isStep then 1 else 0 := by
  unfold flightFinals
  cases (s.bay b).flight <;> rfl

theorem flight_after_append {fl : Flight} {ms ns : List Bool}
    (h : ms.length = if fl.isStep then 1 else 0) : fl.after (ms ++ ns) = fl.after ms := by
  cases fl with
  | step st =>
    cases ms with
    | nil => simp [Flight.isStep] at h
    | cons m ms => rfl
  | empty | held u => rfl

/-- All that the end of every step of a bay does (R112, R116). -/
theorem endSteps_handOvers : s.endSteps b cause
    = (handOvers (endedFinals s b cause) s).1.setBay b
        ((s.bay b).stepsEnded (handOvers (endedFinals s b cause) s).2) := by
  have hl : (handOvers (flightFinals s b cause) s).2.length
      = if (s.bay b).flight.isStep then 1 else 0 := by
    rw [handOvers_length, flightFinals_length]
  rw [endSteps_eq]
  simp only [endFlight_eq, setBay_bay_same, endPlaces_eq, handOvers_setBay, modBay_eq, setBay_setBay]
  rw [placeFinal?_of_windowOf (s := s) fun u => by simp]
  simp only [endedFinals, handOvers_append, queuedFinals_eq]
  congr 1
  simp only [Bay.stepsEnded, Bay.flightEnded, flight_after_append hl, ← hl, List.drop_left]

theorem endedSteps_endSteps : EndedSteps cause b s (s.endSteps b cause) := by
  rw [endSteps_handOvers]
  refine ⟨rfl, rfl, ?_, ?_⟩
  · rw [setBay_bay_same]
    change (s.bay b).flight.after _ = _
    cases (s.bay b).flight <;> rfl
  · rw [setBay_bay_same, flightFinals_length]
    rfl

end Sys2Proof.Machine
end

section
/-! PROOF. What a command can do, said once: the moves of a bay and of the station that every command but a
power-on reset and a completed seating is made of. Each invariant is then kept by each move. -/

namespace Sys2Proof.Machine

open Sys2Proof.Claims

/-! ## The moves of a bay -/

/-- The part of a bay that the invariants speak of; every other field stands at its reset value. -/
def Bay.facets (y : Bay) : Bay :=
  { Bay.reset with
    seat := y.seat, seating := y.seating, power := y.power
    supply := { Supply.reset with on := y.supply.on }
    powerKey := y.powerKey, volumeKey := y.volumeKey, link := y.link, flight := y.flight
    places := y.places, params := { y.params with rangeMode := .auto }
    mu := { Mu.reset with
      sampling := y.mu.sampling, range := y.mu.range, blanking := y.mu.blanking
      downCount := y.mu.downCount, lowOffset := y.mu.lowOffset, highOffset := y.mu.highOffset
      monitorState := y.mu.monitorState, outOfBand := y.mu.outOfBand
      monitorAcc := { Accumulator.cleared with state := y.mu.monitorAcc.state }
      exchangeAcc := { Accumulator.cleared with state := y.mu.exchangeAcc.state } } }

/-- What a command can do to one bay, a completed seating and a power-on reset apart. -/
inductive BayMove : Bay → Bay → Prop
  /-- Nothing that an invariant speaks of changes. -/
  | rest {y z : Bay} (h : z.facets = y.facets) : BayMove y z
  /-- A sensor event before the seating (R1, R2). -/
  | seat {y : Bay} (x : Seat) (hy : y.seat ≠ .seated) (hx : x ≠ .seated) :
      BayMove y { y with seat := x }
  /-- Output good presses the keys (R9). -/
  | press {y : Bay} (v : Bool) (h : y.power = .powering) :
      BayMove y { y with powerKey := true, volumeKey := v }
  /-- The keys are released (R11). -/
  | release {y : Bay} : BayMove y { y with powerKey := false, volumeKey := false }
  /-- The end of the key press (R11). -/
  | booting {y : Bay} (h : y.power = .powering) (hk : y.powerKey = false) :
      BayMove y { y with power := .booting }
  /-- Entry to ON (R11, R14). -/
  | on {y : Bay} (h : y.power = .powering ∨ y.power = .booting)
      (hk : y.power = .powering → y.powerKey = false) : BayMove y { y with power := .on }.relink
  /-- A bay accepted by POWER_ON (R9). -/
  | powering {y : Bay} (v : Variant) (h : y.judgePowerOn = none) : BayMove y (y.enterPowering v)
  /-- A trip or a POWER_OFF of a powered bay (R18, R20). -/
  | down {y : Bay} (ms : List Bool) (p : Power) (h : y.power.outputOn = true)
      (hp : p = .tripped ∨ p = .off) : BayMove y ((y.supplyOff.stepsEnded ms).powerDown p)
  /-- A removal (R3). -/
  | removed {y : Bay} (ms : List Bool) : BayMove y
      { (y.supplyOff.stepsEnded ms).powerDown .none with
          seat := .vacant, removal := none, powerKey := false, volumeKey := false }
  /-- A TRIPPED bay accepted by POWER_OFF (R19). -/
  | off {y : Bay} (h : y.power = .tripped) : BayMove y { y with power := .off }
  /-- A bay accepted by ZERO (R35). -/
  | zero {y : Bay} (h : y.judgeZero = none) : BayMove y y.beginCalibration
  /-- The end of a calibration (R37). -/
  | calibrated {y : Bay} (k : Calibration) (h : y.mu.sampling = .calibrating) :
      BayMove y { y with mu := y.mu.calibrated k }
  /-- A bay accepted by CONFIGURE_BAY (R95, R97). -/
  | configure {y : Bay} (v : Settings) : BayMove y (y.configure v.applied)
  /-- A bay accepted by SEND (R101). -/
  | append {y : Bay} (tag : Tag) (w : Bool) (h : y.judgeSend = none) : BayMove y (y.append tag w)
  /-- A period boundary (R31, R35). -/
  | boundary {y : Bay} (c : RawCode) : BayMove y (y.boundary c)
  /-- The completion of a monitor window (R55 to R59). -/
  | monitor {y : Bay} (h : y.mu.monitorAcc.state ≠ .free) :
      BayMove y { y with mu := y.mu.monitorCompleted y.params }
  /-- The exchange window is opened, or given back (R40, R44, R45). -/
  | window {y : Bay} (a : Accumulator) (h : a.state ≠ .free → y.mu.sampling = .sampling) :
      BayMove y { y with mu := { y.mu with exchangeAcc := a } }
  /-- The step in flight goes on (R106 to R111). -/
  | inFlight {y : Bay} (st : Step) (l : Link) (h : y.flight.isStep = true)
      (hl : l.ofStep = true ∨ l = y.link) :
      BayMove y { y with flight := .step st, link := l }
  /-- A dispatch (R105). -/
  | dispatch {y : Bay} (st st' : Step) (ps : List Place) (h : y.link = .idle)
      (hp : y.places = .step st :: ps) :
      BayMove y { y with flight := .step st', places := ps, link := .sendingLine }
  /-- Steps have ended or held results have been placed, and the link is tested (R104, R112, R115). -/
  | relinked {y : Bay} (fl : Flight) (ps : List Place) (hf : fl = y.flight ∨ fl.isStep = false)
      (hp : ps.length ≤ y.places.length) : BayMove y { y with flight := fl, places := ps }.relink
  /-- Station reset (R22). -/
  | stationReset {y : Bay} : BayMove y y.stationReset

/-- Moves of a bay one after another. -/
abbrev BayMoves : Bay → Bay → Prop := Relation.ReflTransGen BayMove

theorem BayMoves.one {y z : Bay} (h : BayMove y z) : BayMoves y z := .single h

theorem BayMoves.rest {y z : Bay} (h : z.facets = y.facets) : BayMoves y z := .single (.rest h)

/-- A bay predicate that each move keeps holds after any number of them. -/
theorem BayMoves.keeps {P : Bay → Prop} (hP : ∀ y z, BayMove y z → P y → P z) {y z : Bay}
    (h : BayMoves y z) (hy : P y) : P z := by
  induction h with
  | refl => exact hy
  | tail _ hm ih => exact hP _ _ hm ih

/-! ## The moves of the station -/

/-- Station reset at every block, before the SEATED raises (R159, step 4). -/
def State.blocksReset (s : State) : State :=
  let s := s.mapBays fun _ y => y.stationReset
  { s with
    seatDebounceMs := 200
    groups := Vector.ofFn fun n => (s.group n).stationReset
    exchanges := []
    clb := s.clb.stationReset
    atu := s.atu.stationReset
    slc := { s.slc with framesDropped := 0 } }

theorem stationReset_eq (s : State) : s.stationReset = s.blocksReset.raiseSeated := rfl

/-- What a command can do to the station, a completed seating and a power-on reset apart. -/
inductive Move : State → State → Prop
  /-- Bays change, and the steps they hold go on. -/
  | bays {s : State} (t : State) (he : t = { s with bays := t.bays })
      (hb : ∀ b, BayMoves (s.bay b) (t.bay b))
      (hw : s.LinkLegal → ∀ b u, (t.bay b).stepsOf u = (s.bay b).stepsOf u) : Move s t
  /-- Steps of a bay end, and their finals are handed over (R112). -/
  | finals {s : State} (b : BayId) (rs : List Result) (z : Bay) (hb : BayMoves (s.bay b) z)
      (hr : ∀ r ∈ rs, r.bay = b ∧ r.kind = .final)
      (hw : ∀ u, z.stepsOf u + (rs.filter fun r => decide (r.tag = u)).length
        = (s.bay b).stepsOf u) : Move s ((handOvers rs s).1.setBay b z)
  /-- An interim result is handed to the Collation Buffer (R110). -/
  | interim {s : State} (r : Result) (st : Step) (hf : (s.bay r.bay).flight = .step st)
      (ht : r.tag = st.tag) (hk : r.kind = .interim) : Move s (s.collate r).1
  /-- An accepted SEND (R101). -/
  | send {s : State} (r : SendRequest) (tag : Tag) (w : Option WindowSpec) (S : BaySet) (ht : tag ≠ 0)
      (hx : s.exchange? tag = none) (hn : s.exchanges.length < Config.exchangeRecords)
      (hj : ∀ b, inSet S b = true → (s.bay b).judgeSend = none) : Move s (s.startExchange r tag w S)
  /-- The cancelled flag is set (R117). -/
  | cancelled {s : State} (tag : Tag) :
      Move s (s.modExchange tag fun x => { x with cancelled := true })
  /-- A placement pass (R130). -/
  | placing {s : State} : Move s s.placeHeld
  /-- A batch notice has left, and held results are placed (R136, steps 1 to 4). -/
  | batchEnd {s : State} (e : Entry) (rest : List Entry) (h : s.clb.entries = e :: rest) :
      Move s ({ s with clb := s.clb.freeHead e rest }.reportEntry e).placeHeld
  /-- The head is taken (R134). -/
  | batchTaken {s : State} (e : Entry) (rest : List Entry) (h : s.clb.entries = e :: rest) :
      Move s { s with clb := { s.clb with entries := s.takenHead e rest :: rest, offer := false } }
  /-- The entries age or take a mark (R133, R139). -/
  | entries {s : State} (f : Entry → Entry) (n : Nat)
      (hf : ∀ e, f e = { e with
        age := (f e).age, syncMark := (f e).syncMark, queryMark := (f e).queryMark })
      (hn : s.clb.Legal → n = ((s.clb.entries.map f).filter Entry.marked).length) :
      Move s { s with clb := { s.clb with entries := s.clb.entries.map f, markCount := n } }
  /-- The offer and the batch parameters (R133, R174). -/
  | batching {s : State} (o : Bool) (p h : Nat) :
      Move s { s with clb := { s.clb with offer := o, pressure := p, holdMs := h } }
  /-- Station reset at every block. -/
  | blocksReset {s : State} : Move s s.blocksReset
  /-- The Station Link Controller within its bounds. -/
  | link {s : State} (l : Slc) (hc : s.slc.claimed ≤ Config.answerPlaces →
        l.claimed ≤ Config.answerPlaces)
      (hd : s.slc.framesDropped ≤ 255 → l.framesDropped ≤ 255) : Move s { s with slc := l }
  /-- The Group Table and the debounce length. -/
  | settings {s : State} (g : Vector Group 16) (n : Nat) :
      Move s { s with groups := g, seatDebounceMs := n }
  /-- A raise (R148, R149). -/
  | raise {s : State} (b : BayId) (c : AttClass) (d : ClassData) : Move s (s.raiseFlag b c d)
  /-- A flag is cleared (R154). -/
  | clear {s : State} (b : BayId) (c : AttClass) : Move s (s.clearFlag b c)
  /-- Threshold and levels change, and every flag is re-evaluated (R152). -/
  | levels {s : State} (ls : Vector Nat 9) (n : Nat) :
      Move s { s with atu := { s.atu with levels := ls, threshold := n } }.reevaluate
  /-- A notice is taken (R151). -/
  | noticeTaken {s : State} (b : BayId) (c : AttClass) (rest : List (BayId × AttClass))
      (h : s.atu.queue = (b, c) :: rest) : Move s (s.noticeTaken b c rest)
  /-- A notice has left (R151). -/
  | noticeEnded {s : State} (b : BayId) (c : AttClass) : Move s (s.noticeEnded b c)
  /-- The log ring and its dropped counts (R157, R158). -/
  | log {s : State} (ring : List LogLine) (dropped : Vector Nat 24)
      (h : s.atu.ring.length ≤ Config.logLines → ring.length ≤ Config.logLines) :
      Move s { s with atu := { s.atu with ring := ring, dropped := dropped } }

/-- Moves of the station one after another. -/
abbrev Moves : State → State → Prop := Relation.ReflTransGen Move

/-- A state predicate that each move keeps holds after any number of them. -/
theorem Moves.keeps {P : State → Prop} (hP : ∀ s t, Move s t → P s → P t) {s t : State}
    (h : Moves s t) (hs : P s) : P t := by
  induction h with
  | refl => exact hs
  | tail _ hm ih => exact hP _ _ hm ih

end Sys2Proof.Machine
end

section
/-! PROOF. The shared operations of the bays as moves: completions, formations, ends of steps, supply-off. -/

namespace Sys2Proof.Machine

open Sys2Proof.Claims

variable {s t : State} {b : BayId} {y z : Bay} {u : Tag}

/-! ## The number of steps of an exchange at a bay (R103) -/

theorem stepsOf_congr (hf : z.flight = y.flight) (hp : z.places = y.places) :
    z.stepsOf u = y.stepsOf u := by
  unfold Bay.stepsOf; rw [hf, hp]

theorem stepsOf_step_congr {st st' : Step} (hf : y.flight = .step st) (hz : z.flight = .step st')
    (ht : st'.tag = st.tag) (hp : z.places = y.places) : z.stepsOf u = y.stepsOf u := by
  simp only [Bay.stepsOf, hf, hz, ht, hp]

theorem stepsOf_of_facets (h : z.facets = y.facets) : z.stepsOf u = y.stepsOf u :=
  stepsOf_congr (congrArg Bay.flight h : z.facets.flight = y.facets.flight)
    (congrArg Bay.places h : z.facets.places = y.facets.places)

theorem stepsOf_relink : y.relink.stepsOf u = y.stepsOf u := by
  rw [relink_eq]; rfl

theorem closedFlight_step_tag {st : Step} (h : y.flight = .step st) :
    y.closedFlight = .step { st with window := y.closedWindow st } := by
  simp only [Bay.closedFlight, h]

theorem stepsOf_closeWindow : y.closeWindow.stepsOf u = y.stepsOf u := by
  rw [closeWindow_eq]
  cases h : y.flight with
  | step st => exact stepsOf_step_congr h (closedFlight_step_tag h) rfl rfl
  | empty | held t => exact stepsOf_congr (by simp [Bay.closedFlight, h]) rfl

/-- Places after an abnormal end hold no step. -/
theorem placesAfter_no_step (ps : List Place) (ms : List Bool) :
    ∀ p ∈ placesAfter ps ms, p.isStep = false := by
  fun_induction placesAfter ps ms <;> simp_all [Place.isStep]

theorem placesAfter_length (ps : List Place) (ms : List Bool) :
    (placesAfter ps ms).length ≤ ps.length := by
  fun_induction placesAfter ps ms <;> grind

theorem isStepOf_of_not_isStep {p : Place} (h : p.isStep = false) : p.isStepOf u = false := by
  cases p <;> simp_all [Place.isStep, Place.isStepOf]

theorem stepsOf_of_no_step (hf : y.flight.isStep = false) (hp : ∀ p ∈ y.places, p.isStep = false) :
    y.stepsOf u = 0 := by
  have h : y.places.filter (Place.isStepOf u) = [] :=
    List.filter_eq_nil_iff.mpr fun p hm => by simp [isStepOf_of_not_isStep (hp p hm)]
  unfold Bay.stepsOf
  rw [h]
  cases hfl : y.flight <;> simp_all [Flight.isStep]

theorem flight_after_no_step (fl : Flight) (ms : List Bool) : (fl.after ms).isStep = false := by
  cases fl <;> simp only [Flight.after]
  · rfl
  · split <;> rfl
  · rfl

/-- The finals that a bay's end of steps forms are, for each exchange, as many as its steps. -/
theorem endedFinals_count {cause : Outcome} :
    ((endedFinals s b cause).filter fun r => decide (r.tag = u)).length = (s.bay b).stepsOf u := by
  have hq (ps : List Place) : ((ps.filterMap (placeFinal? s b cause)).filter
      fun r => decide (r.tag = u)).length = (ps.filter (Place.isStepOf u)).length := by
    induction ps with
    | nil => rfl
    | cons p ps ih =>
      cases p with
      | held t => simpa [placeFinal?, Place.isStepOf, List.filterMap_cons] using ih
      | step st =>
        simp only [placeFinal?, List.filterMap_cons, List.filter_cons, Place.isStepOf, finalResult]
        by_cases h : st.tag = u <;> simp [h, ih]
  have hf : ((flightFinals s b cause).filter fun r => decide (r.tag = u)).length
      = match (s.bay b).flight with
        | .step st => if st.tag = u then 1 else 0
        | .empty => 0
        | .held _ => 0 := by
    unfold flightFinals
    cases (s.bay b).flight with
    | step st => by_cases h : st.tag = u <;> simp [finalResult, h]
    | empty | held t => rfl
  rw [endedFinals, List.filter_append, List.length_append, hf, queuedFinals_eq, hq]
  rfl

theorem endedFinals_of_bay {cause : Outcome} :
    ∀ r ∈ endedFinals s b cause, r.bay = b ∧ r.kind = .final := by
  intro r hr
  rw [endedFinals, List.mem_append] at hr
  rcases hr with hr | hr
  · unfold flightFinals at hr
    split at hr <;> simp_all [finalResult]
  · rw [queuedFinals_eq, List.mem_filterMap] at hr
    obtain ⟨p, -, hp⟩ := hr
    cases p <;> simp_all [placeFinal?]
    subst hp; exact ⟨rfl, rfl⟩

/-! ## Moves of one bay in the station -/

theorem Moves.refl (s : State) : Moves s s := Relation.ReflTransGen.refl

theorem Moves.setBay (hb : BayMoves (s.bay b) z)
    (hw : s.LinkLegal → ∀ u, z.stepsOf u = (s.bay b).stepsOf u) : Moves s (s.setBay b z) := by
  refine .single (.bays _ rfl (fun b' => ?_) fun hl b' u => ?_)
  · rw [setBay_bay]
    split
    · next h => subst h; exact hb
    · exact .refl
  · rw [setBay_bay]
    split
    · next h => subst h; exact hw hl u
    · rfl

theorem Moves.modBay {f : Bay → Bay} (hb : BayMoves (s.bay b) (f (s.bay b)))
    (hw : s.LinkLegal → ∀ u, (f (s.bay b)).stepsOf u = (s.bay b).stepsOf u) :
    Moves s (s.modBay b f) := .setBay hb hw

theorem Moves.restAt {f : Bay → Bay} (h : (f (s.bay b)).facets = (s.bay b).facets) :
    Moves s (s.modBay b f) := .modBay (.rest h) fun _ _ => stepsOf_of_facets h

theorem Moves.mapBays {f : BayId → Bay → Bay} (hb : ∀ b, BayMoves (s.bay b) (f b (s.bay b)))
    (hw : s.LinkLegal → ∀ b u, (f b (s.bay b)).stepsOf u = (s.bay b).stepsOf u) :
    Moves s (s.mapBays f) :=
  .single (.bays _ rfl (fun b => by rw [mapBays_bay]; exact hb b)
    fun hl b u => by rw [mapBays_bay]; exact hw hl b u)

theorem Moves.ifBay {S : BaySet} {f : Bay → Bay}
    (hb : ∀ b, inSet S b = true → BayMoves (s.bay b) (f (s.bay b)))
    (hw : ∀ y u, (f y).stepsOf u = y.stepsOf u) :
    Moves s (s.mapBays fun b y => if inSet S b then f y else y) := by
  refine .mapBays (fun b => ?_) fun _ b u => ?_
  · split
    · next h => exact hb b h
    · exact .refl
  · split
    · exact hw _ u
    · rfl

theorem Moves.raise (b : BayId) (c : AttClass) (d : ClassData) : Moves s (s.raiseFlag b c d) :=
  .single (.raise b c d)

theorem Moves.forBays {S : BaySet} {f : BayId → State → State}
    (hf : ∀ b s, inSet S b = true → Moves s (f b s)) : Moves s (s.forBays S f) :=
  forBays_keeps (P := fun t => Moves s t) (fun b _ hb h => h.trans (hf b _ hb)) (.refl s)

/-! ## Windows and formations -/

theorem recordSummary_moves (w : WindowSummary) : BayMoves y (y.recordSummary w) := by
  unfold Bay.recordSummary
  split
  · next st hf =>
    split
    · exact .one (.inFlight _ y.link (by rw [hf]; rfl) (.inr rfl))
    all_goals exact .refl
  all_goals exact .refl

theorem recordSummary_stepsOf (w : WindowSummary) : (y.recordSummary w).stepsOf u = y.stepsOf u := by
  unfold Bay.recordSummary
  split
  · next st hf =>
    split
    · exact stepsOf_step_congr hf rfl rfl rfl
    all_goals rfl
  all_goals rfl

theorem exchangeCompleted_moves : BayMoves y y.exchangeCompleted :=
  (BayMoves.one (.window y.mu.exchangeAcc.freed fun h => absurd rfl h)).trans
    (recordSummary_moves _)

/-- Formation as one handover and the bay it leaves. -/
theorem formFlight_relink_eq {st : Step} {rp : Reply} :
    (s.formFlight b st rp).modBay b Bay.relink
      = (handOvers [s.finalOf b st rp] s).1.setBay b
          ((s.bay b).afterFlight st.tag (s.handOver (s.finalOf b st rp)).2).relink := by
  simp [formFlight_eq, modBay_eq, handOvers]

theorem formFlight_relink_moves {st : Step} {rp : Reply} (h : (s.bay b).flight = .step st) :
    Moves s ((s.formFlight b st rp).modBay b Bay.relink) := by
  rw [formFlight_relink_eq]
  refine .single (.finals b _ _ ?_ (by simp [State.finalOf]) fun u => ?_)
  · refine (BayMoves.rest (y := s.bay b) (z := { s.bay b with windowDelay := none }) rfl).tail ?_
    exact .relinked _ _ (.inr (by split <;> rfl)) le_rfl
  · rw [stepsOf_relink]
    cases (s.handOver (s.finalOf b st rp)).2 <;> by_cases hu : st.tag = u <;>
      simp [Bay.stepsOf, Bay.afterFlight, h, State.finalOf, hu, Nat.add_comm]

theorem formResult_moves : Moves s (s.formResult b) := by
  unfold State.formResult
  split
  · next st hf =>
    split
    · exact formFlight_relink_moves hf
    · exact formFlight_relink_moves hf
    · exact formFlight_relink_moves hf
    all_goals exact .refl s
  all_goals exact .refl s

theorem completeExchange_moves : Moves s (s.completeExchange b) := by
  unfold State.completeExchange
  split
  · exact (Moves.modBay exchangeCompleted_moves
      fun _ _ => recordSummary_stepsOf _).trans formResult_moves
  · exact .refl s

theorem due_state {a : Accumulator} (h : a.due = true) : a.state ≠ .free := by
  unfold Accumulator.due at h
  intro hf
  simp [hf] at h

theorem completeMonitor_moves : Moves s (s.completeMonitor b) := by
  unfold State.completeMonitor
  simp only
  split
  · next hd =>
    have hm : Moves s (s.modBay b fun y => { y with mu := y.mu.monitorCompleted y.params }) :=
      .modBay (.one (.monitor (due_state hd))) fun _ _ => rfl
    split
    · exact hm.trans (Moves.raise _ _ _)
    · exact hm
  · exact .refl s

theorem endCalibration_moves : Moves s (s.endCalibration b) := by
  unfold State.endCalibration
  split
  · next k hs hk =>
    split
    · exact (Moves.modBay (.one (.calibrated k hs)) fun _ _ => rfl).trans (Moves.raise _ _ _)
    · exact .refl s
  all_goals exact .refl s

theorem boundary_stepsOf (c : RawCode) : (y.boundary c).stepsOf u = y.stepsOf u := by
  unfold Bay.boundary; split <;> rfl

theorem settleDue_moves : Moves s (s.settleDue b) :=
  (completeMonitor_moves.trans completeExchange_moves).trans endCalibration_moves

theorem periodBoundary_moves (c : RawCode) :
    Moves s (((s.settleDue b).modBay b fun y => y.boundary c).endCalibration b) := by
  have hb : Moves (s.settleDue b) ((s.settleDue b).modBay b fun y => y.boundary c) :=
    .modBay (.single (.boundary c)) fun _ _ => boundary_stepsOf c
  exact (settleDue_moves.trans hb).trans endCalibration_moves

/-! ## Supply off with the end of every step -/

/-- The windows that an earlier boundary made due at a bay completed before its supply goes off. -/
def State.beforeOff (s : State) (b : BayId) : State :=
  if (s.bay b).power.outputOn then (s.completeMonitor b).completeExchange b else s

theorem beforeOff_moves : Moves s (s.beforeOff b) := by
  unfold State.beforeOff
  split
  · exact completeMonitor_moves.trans completeExchange_moves
  · exact .refl s

theorem completeMonitor_bay_eq : ∃ m, (s.completeMonitor b).bay b = { s.bay b with mu := m } := by
  rw [completeMonitor_bay]
  split
  · exact ⟨_, rfl⟩
  · exact ⟨_, rfl⟩

/-- What completes before a supply-off leaves of its bay. -/
theorem beforeOff_bay : ∃ f d l m, (s.beforeOff b).bay b
    = { s.bay b with flight := f, windowDelay := d, link := l, mu := m } := by
  unfold State.beforeOff
  split
  · obtain ⟨f, d, l, a, h⟩ := completeExchange_bay (s := s.completeMonitor b) (b := b)
    obtain ⟨m, h'⟩ := completeMonitor_bay_eq (s := s) (b := b)
    rw [h, h']
    exact ⟨_, _, _, _, rfl⟩
  · exact ⟨_, _, _, _, rfl⟩

theorem beforeOff_power : ((s.beforeOff b).bay b).power = (s.bay b).power := by
  obtain ⟨f, d, l, m, h⟩ := beforeOff_bay (s := s) (b := b)
  rw [h]

theorem supplyOff_eq_beforeOff : s.supplyOff b = (s.beforeOff b).modBay b Bay.supplyOff := by
  unfold State.supplyOff
  split
  · next h => rw [State.beforeOff, if_pos h]
  · next h =>
    have hb : (s.bay b).supplyOff = s.bay b := by rw [Bay.supplyOff, if_neg h]
    rw [State.beforeOff, if_neg h, modBay_eq, hb, setBay_self]

theorem stopLine_eq (y : Bay) :
    ∃ k l, y.stopLine = { y with token := k, line := l } := by
  unfold Bay.stopLine
  split <;> exact ⟨_, _, rfl⟩

theorem supplyOff_stepsOf : y.supplyOff.stepsOf u = y.stepsOf u := by
  unfold Bay.supplyOff
  split
  · obtain ⟨k, l, h⟩ := stopLine_eq
      { y with supply := y.supply.disable, powerKey := false, volumeKey := false }
    simp only [h, Bay.stopSampling]
    exact stepsOf_closeWindow (y := { y with
      supply := y.supply.disable, powerKey := false, volumeKey := false, token := k
      line := l.silence })
  · rfl

theorem stepsEnded_stepsOf (ms : List Bool) : (y.stepsEnded ms).stepsOf u = 0 :=
  stepsOf_of_no_step (flight_after_no_step _ _) (placesAfter_no_step _ _)

/-- Supply off and the end of every step, as one handover of finals and the bay it leaves. -/
theorem supplyOff_endSteps {cause : Outcome} : (s.supplyOff b).endSteps b cause
    = (handOvers (endedFinals (s.supplyOff b) b cause) (s.beforeOff b)).1.setBay b
        (((s.beforeOff b).bay b).supplyOff.stepsEnded
          (handOvers (endedFinals (s.supplyOff b) b cause) (s.beforeOff b)).2) := by
  rw [endSteps_handOvers, supplyOff_eq_beforeOff]
  simp only [modBay_eq, handOvers_setBay, setBay_setBay, setBay_bay_same]

/-- A bay is switched off, its steps end, and it goes down by `f`. -/
theorem offAndDown_moves {cause : Outcome} {f : Bay → Bay}
    (hf : ∀ ms, BayMoves ((s.beforeOff b).bay b) (f (((s.beforeOff b).bay b).supplyOff.stepsEnded ms)))
    (hs : ∀ y u, (f y).stepsOf u = y.stepsOf u) :
    Moves s (((s.supplyOff b).endSteps b cause).modBay b f) := by
  refine beforeOff_moves (b := b) |>.tail ?_
  rw [supplyOff_endSteps, modBay_eq, setBay_bay_same, setBay_setBay]
  refine .finals b _ _ (hf _) endedFinals_of_bay fun u => ?_
  rw [hs, stepsEnded_stepsOf, endedFinals_count, supplyOff_eq_beforeOff, modBay_bay_same,
    supplyOff_stepsOf, Nat.zero_add]

theorem powerDown_stepsOf (p : Power) : (y.powerDown p).stepsOf u = y.stepsOf u := rfl

theorem trip_moves {cause : TripCause} (h : (s.bay b).power.outputOn = true) :
    Moves s (s.trip b cause) := by
  unfold State.trip
  refine (offAndDown_moves (f := fun y => y.powerDown .tripped) (fun ms => ?_)
    fun y u => powerDown_stepsOf _).trans (Moves.raise _ _ _)
  exact .single (.down ms .tripped (by rw [beforeOff_power]; exact h) (.inl rfl))

theorem remove_moves : Moves s (s.remove b) := by
  unfold State.remove
  exact (offAndDown_moves
    (f := fun y => { y.powerDown .none with
      seat := .vacant, removal := none, powerKey := false, volumeKey := false })
    (fun ms => .single (.removed ms)) fun y u => rfl).trans (Moves.raise _ _ _)

theorem powerOffBay_moves : Moves s (s.powerOffBay b) := by
  have hon (h : (s.bay b).power.outputOn = true) :
      Moves s (((s.supplyOff b).endSteps b .powerLost).modBay b fun y => y.powerDown .off) :=
    offAndDown_moves (f := fun y => y.powerDown .off)
      (fun ms => .single (.down ms .off (by rw [beforeOff_power]; exact h) (.inr rfl)))
      fun y u => powerDown_stepsOf _
  unfold State.powerOffBay
  split
  · next h => exact hon (by rw [h]; rfl)
  · next h => exact hon (by rw [h]; rfl)
  · next h => exact hon (by rw [h]; rfl)
  · next h => exact .modBay (.one (.off h)) fun _ _ => rfl
  all_goals exact .refl s

/-! ## A reboot (R82, R120) -/

theorem stepsEnded_relink_moves {ms : List Bool} {k : Token} {l : Line} {m : Mu}
    (hm : ({ y with token := k, line := l, mu := { m with exchangeAcc := y.mu.exchangeAcc } } : Bay).facets
      = y.facets) (hx : m.exchangeAcc = y.mu.exchangeAcc.freed) :
    BayMoves y ({ y.stepsEnded ms with token := k, line := l, mu := m } : Bay).relink := by
  refine (BayMoves.rest hm).trans ?_
  refine (BayMoves.one (.window y.mu.exchangeAcc.freed fun h => absurd rfl h)).trans ?_
  refine (BayMoves.rest (z := { y with
    token := k, line := l, mu := m
    windowDelay := if y.flight.isStep then none else y.windowDelay }) ?_).trans ?_
  · rw [← hx]; rfl
  · exact .single (.relinked _ _ (.inr (flight_after_no_step _ _)) (placesAfter_length _ _))

theorem settleTrigger_rest (m : Mu) (ms : Nat) :
    ∃ st ps, m.settleTrigger ms = { m with settleTimer := st, periodSettle := ps } := by
  unfold Mu.settleTrigger
  split
  · split <;> exact ⟨_, _, rfl⟩
  all_goals exact ⟨_, _, rfl⟩

end Sys2Proof.Machine
end

section
/-! PROOF. The commands of a bay as moves: seat, supply reports, boot, steps, uplink. -/

namespace Sys2Proof.Machine

open Sys2Proof.Claims

variable {s t : State} {b : BayId} {y z : Bay} {u : Tag}

/-! ## Seat, supply and boot -/

theorem sensorCloses_moves (ms : Nat) : BayMoves y (y.sensorCloses ms) := by
  unfold Bay.sensorCloses
  split
  · next h =>
    exact (BayMoves.one (.seat .seating (by simp [h]) (by simp))).tail (.rest rfl)
  all_goals exact .rest rfl

theorem sensorCloses_stepsOf (ms : Nat) : (y.sensorCloses ms).stepsOf u = y.stepsOf u := by
  unfold Bay.sensorCloses; split <;> rfl

theorem sensorOpens_moves : BayMoves y y.sensorOpens := by
  unfold Bay.sensorOpens
  split
  · exact .rest rfl
  · next h => exact (BayMoves.one (.seat .vacant (by simp [h]) (by simp))).tail (.rest rfl)
  · exact .rest rfl

theorem sensorOpens_stepsOf : y.sensorOpens.stepsOf u = y.stepsOf u := by
  unfold Bay.sensorOpens; split <;> rfl

theorem outputGoodReport_moves : BayMoves y y.outputGoodReport := by
  unfold Bay.outputGoodReport
  split
  · next h => exact (BayMoves.one (.press _ h.1)).tail (.rest rfl)
  · exact .refl

theorem outputGoodReport_stepsOf : y.outputGoodReport.stepsOf u = y.stepsOf u := by
  unfold Bay.outputGoodReport; split <;> rfl

theorem limitEngagedReport_facets : y.limitEngagedReport.facets = y.facets := by
  unfold Bay.limitEngagedReport; split <;> rfl

theorem limitReleasedReport_facets : y.limitReleasedReport.facets = y.facets := by
  unfold Bay.limitReleasedReport; split <;> rfl

theorem belowBrownoutReport_facets : y.belowBrownoutReport.facets = y.facets := by
  unfold Bay.belowBrownoutReport; split <;> rfl

theorem aboveBrownoutReport_facets : y.aboveBrownoutReport.facets = y.facets := by
  unfold Bay.aboveBrownoutReport; split <;> rfl

theorem enterOn_moves (n : Nat) (h : y.power = .powering ∨ y.power = .booting)
    (hk : y.power = .powering → y.powerKey = false) : BayMoves y (y.enterOn n) := by
  refine (BayMoves.rest (y := y) (z := { y with
    earlyReady := false, bootTime := n, bootTimer := none, bootDeadline := none, token := 0 }) rfl).tail ?_
  exact .on h hk

theorem enterOn_stepsOf (n : Nat) : (y.enterOn n).stepsOf u = y.stepsOf u := stepsOf_relink

theorem enterOnEarly_moves (h : y.power = .powering) : BayMoves y y.enterOnEarly :=
  ((BayMoves.one .release).tail (.rest (z := { y with
      powerKey := false, volumeKey := false, key := none }) rfl)).trans
    (enterOn_moves 0 (.inl h) fun _ => rfl)

theorem enterBooting_moves (h : y.power = .powering) : BayMoves y y.enterBooting :=
  (((BayMoves.one .release).tail (.booting h rfl))).tail (.rest rfl)

/-! ## The step in flight -/

/-- The step in flight gives way to another of the same exchange. -/
theorem flight_moves {st st' : Step} (l : Link) (hf : y.flight = .step st)
    (hl : l.ofStep = true ∨ l = y.link) : BayMoves y { y with flight := .step st', link := l } :=
  .one (.inFlight st' l (by rw [hf]; rfl) hl)

theorem openWindow_moves (w : WindowSpec) : BayMoves y (y.openWindow w) := by
  unfold Bay.openWindow
  split
  · next st hf =>
    split
    · next hs =>
      exact ((BayMoves.one (.window (Accumulator.opening w.length (some w)) fun _ => hs)).trans
        (flight_moves (st' := { st with window := .opened }) y.link hf (.inr rfl))).tail (.rest rfl)
    all_goals
      exact (flight_moves (st' := { st with window := .notOpened }) y.link hf (.inr rfl)).tail
        (.rest rfl)
  all_goals exact .refl

theorem openWindow_stepsOf (w : WindowSpec) : (y.openWindow w).stepsOf u = y.stepsOf u := by
  unfold Bay.openWindow
  split
  · next st hf => split <;> exact stepsOf_step_congr hf rfl rfl rfl
  all_goals rfl

theorem startWindow_moves (w : WindowSpec) : BayMoves y (y.startWindow w) := by
  unfold Bay.startWindow
  split
  · exact openWindow_moves w
  · exact .rest rfl

theorem startWindow_stepsOf (w : WindowSpec) : (y.startWindow w).stepsOf u = y.stepsOf u := by
  unfold Bay.startWindow
  split
  · exact openWindow_stepsOf w
  · rfl

theorem windowDelayExpiry_moves : ∃ t, execWindowDelayExpiry b s = .next t ∧ Moves s t := by
  refine ⟨_, rfl, ?_⟩
  split
  · split
    · next w _ =>
      refine (Moves.modBay ?_ fun _ _ => ?_).trans formResult_moves
      · exact (BayMoves.rest (y := s.bay b) (z := { s.bay b with windowDelay := none }) rfl).trans
          (openWindow_moves w)
      · exact openWindow_stepsOf w
    · exact .restAt rfl
  · exact .refl s

theorem stopLine_facets : y.stopLine.facets = y.facets := by
  unfold Bay.stopLine; split <;> rfl

theorem awaitReply_moves {st : Step} (w : Option WindowSpec) (hf : y.flight = .step st) :
    BayMoves y (y.awaitReply st w) := by
  have ha := flight_moves (y := y) (st' := { st with
    deadline := .running (Timer.start st.replyDeadlineMs), clock := 0 }) .awaiting hf (.inl rfl)
  unfold Bay.awaitReply
  simp only
  split
  · exact ha
  · split
    · exact ha.trans (startWindow_moves _)
    · exact ha

theorem awaitReply_stepsOf {st : Step} (w : Option WindowSpec) (hf : y.flight = .step st) :
    (y.awaitReply st w).stepsOf u = y.stepsOf u := by
  have ha : ({ y with link := .awaiting, flight := .step { st with
      deadline := .running (Timer.start st.replyDeadlineMs), clock := 0 } } : Bay).stepsOf u
      = y.stepsOf u := stepsOf_step_congr hf rfl rfl rfl
  unfold Bay.awaitReply
  simp only
  split
  · exact ha
  · split
    · rw [startWindow_stepsOf, ha]
    · exact ha

theorem downlinkEnd_moves : ∃ t, execDownlinkEndOfTransmission b s = .next t ∧ Moves s t := by
  refine ⟨_, rfl, ?_⟩
  have hl : Moves s (s.modBay b Bay.lineSent) := .restAt stopLine_facets
  split
  · exact .refl s
  · simp only
    split
    · next st _ hf =>
      exact hl.trans (Moves.modBay (awaitReply_moves _ hf) fun _ _ => awaitReply_stepsOf _ hf)
    · exact hl

theorem headStep?_eq {st : Step} {ps : List Place} (h : y.headStep? = some (st, ps)) :
    y.places = .step st :: ps := by
  unfold Bay.headStep? at h
  split at h <;> simp_all

theorem stepDispatch_moves : ∃ t, execStepDispatch b s = .next t ∧ Moves s t := by
  refine ⟨_, rfl, ?_⟩
  split
  · next st ps hl _ hh =>
    have hp := headStep?_eq hh
    refine .modBay ((BayMoves.one (.dispatch st _ ps hl hp)).tail (.rest rfl)) fun hlegal u => ?_
    have hf : (s.bay b).flight.isStep = false := by
      have := (hlegal b).2.flight
      simpa [hl, Link.ofStep] using this
    simp only [Bay.stepsOf, Bay.dispatch, Step.dispatched, hp, List.filter_cons, Place.isStepOf]
    cases h : (s.bay b).flight with
    | step st => simp [h, Flight.isStep] at hf
    | empty | held v => by_cases hu : st.tag = u <;> simp [hu, Nat.add_comm]
  · exact .refl s

theorem measure_moves {st st' : Step} (hf : y.flight = .step st) : BayMoves y (y.measure st') :=
  (flight_moves .measuring hf (.inl rfl))

theorem replyFinal_moves {st : Step} {r : Reply} (hf : (s.bay b).flight = .step st) :
    Moves s (s.replyFinal b st r) := by
  have hm : Moves s (s.modBay b fun y => y.measure (st.replied r)) :=
    .modBay (measure_moves hf) fun _ _ => stepsOf_step_congr hf rfl rfl rfl
  unfold State.replyFinal
  simp only
  split
  · next w _ _ =>
    split
    · exact hm
    · refine (Moves.modBay (f := fun y => (y.measure (st.replied r)).startWindow w) ?_
        fun _ _ => ?_).trans formResult_moves
      · exact (measure_moves hf).trans (startWindow_moves w)
      · rw [startWindow_stepsOf]; exact stepsOf_step_congr hf rfl rfl rfl
  · exact hm
  · refine (Moves.modBay (f := fun y => { y with flight := .step (st.replied r) }) ?_
      fun _ _ => stepsOf_step_congr hf rfl rfl rfl).trans formResult_moves
    exact flight_moves (s.bay b).link hf (.inr rfl)

theorem replyTimeout_moves {st : Step} (hf : (s.bay b).flight = .step st) :
    Moves s (s.replyTimeout b st) := by
  have hm (r : Reply) : Moves s (s.modBay b fun y => y.measure (st.replied r)) :=
    .modBay (measure_moves hf) fun _ _ => stepsOf_step_congr hf rfl rfl rfl
  have hf' (st' : Step) (h : st'.tag = st.tag) :
      Moves s ((s.modBay b fun y => { y with flight := .step st' }).formResult b) :=
    (Moves.modBay (f := fun y => { y with flight := .step st' })
      (flight_moves (s.bay b).link hf (.inr rfl))
      fun _ _ => stepsOf_step_congr hf rfl h rfl).trans formResult_moves
  unfold State.replyTimeout
  simp only
  split
  · split
    · exact hm _
    · exact hf' _ rfl
  · exact hm _
  · exact hf' _ rfl

theorem replyDeadlineExpiry_moves : ∃ t, execReplyDeadlineExpiry b s = .next t ∧ Moves s t := by
  refine ⟨_, rfl, ?_⟩
  split
  · next st _ hf =>
    split
    · exact replyTimeout_moves hf
    all_goals exact .refl s
  · exact .refl s

theorem extended_tag (st : Step) : st.extended.tag = st.tag := by
  unfold Step.extended; split <;> rfl

theorem told_tag (st : Step) (p : Bool) : (st.told p).tag = st.tag := by
  unfold Step.told; split <;> rfl

theorem replyInterim_moves {st : Step} {text : List Byte} {cut : Bool}
    (hf : (s.bay b).flight = .step st) : Moves s (s.replyInterim b st text cut) := by
  have hstep {v : State} (hv : v.bay b = s.bay b) (st' : Step) (h : st'.tag = st.tag) :
      Moves v (v.modBay b fun y => { y with flight := .step st' }) := by
    have hf' : (v.bay b).flight = .step st := by rw [hv]; exact hf
    exact .modBay (flight_moves (v.bay b).link hf' (.inr rfl))
      fun _ _ => stepsOf_step_congr hf' rfl h rfl
  unfold State.replyInterim
  simp only
  split
  · refine (Moves.refl s).tail (.interim (interimOf b st.extended text cut) st hf
      (extended_tag st) rfl) |>.trans (hstep collate_bay _ ?_)
    rw [told_tag, extended_tag]
  · exact hstep rfl _ (extended_tag st)

/-! ## The uplink -/

theorem reboot_moves : Moves s (s.reboot b) := by
  unfold State.reboot
  simp only
  refine Relation.ReflTransGen.trans ?_ (Moves.raise _ _ _)
  refine completeExchange_moves (b := b) |>.trans ?_
  generalize s.completeExchange b = v
  have hl : Moves v (v.modBay b Bay.stopLine) := .restAt stopLine_facets
  refine hl.trans ?_
  generalize v.modBay b Bay.stopLine = v
  rw [endSteps_handOvers, modBay_eq, setBay_bay_same, setBay_setBay]
  refine .single (.finals b _ _ ?_ endedFinals_of_bay fun u => ?_)
  · refine stepsEnded_relink_moves ?_ ?_
    · split
      · obtain ⟨_, _, h⟩ := settleTrigger_rest (v.bay b |>.stepsEnded _).mu _
        rw [h]; rfl
      · rfl
    · split
      · obtain ⟨_, _, h⟩ := settleTrigger_rest (v.bay b |>.stepsEnded _).mu _
        rw [h]; rfl
      · rfl
  · rw [stepsOf_relink, endedFinals_count]
    exact (congrArg (· + _) (stepsEnded_stepsOf (y := v.bay b) _)).trans (Nat.zero_add _)

theorem deliverLog_moves (l : LogLine) : Moves s (s.deliverLog l) := by
  unfold State.deliverLog
  split
  · next h => exact .single (.log _ s.atu.dropped fun _ => by simp; omega)
  · exact .single (.log s.atu.ring _ id)

theorem matching_flight {k : Token} {st : Step} (h : y.matching k = some st) :
    y.link = .awaiting ∧ y.flight = .step st ∧ st.token = k := by
  unfold Bay.matching at h
  split at h
  · next st' hl hf =>
    split at h
    · next ht => simp_all
    · simp at h
  · simp at h

theorem completeBoot_moves (h : (s.bay b).power = .booting) : Moves s (s.completeBoot b) := by
  unfold State.completeBoot
  exact (Moves.modBay (enterOn_moves _ (.inr h) fun h' => by rw [h] at h'; simp at h')
    fun _ _ => enterOn_stepsOf _).trans (Moves.raise _ _ _)

theorem readyLine_moves : Moves s (s.readyLine b) := by
  unfold State.readyLine
  split
  · exact .restAt rfl
  · next h => exact completeBoot_moves h
  · exact reboot_moves
  all_goals exact .refl s

theorem route_moves (k : LineKind) : Moves s (s.route b k) := by
  have hstray : Moves s (s.stray b) := .restAt (f := fun y => { y with line := y.line.countStray }) rfl
  cases k with
  | final t text cut =>
    simp only [State.route]
    split
    · next st h => exact replyFinal_moves (matching_flight h).2.1
    · exact hstray
  | interim t text cut =>
    simp only [State.route]
    split
    · next st h => exact replyInterim_moves (matching_flight h).2.1
    · exact hstray
  | event text cut =>
    simp only [State.route]
    split
    · exact readyLine_moves
    · exact Moves.raise _ _ _
  | log text cut =>
    simp only [State.route]
    split
    · exact deliverLog_moves _
    · exact .refl s
  | garbage => exact .restAt (f := fun y => { y with line := y.line.countGarbage }) rfl

theorem uplinkByte_moves (x : Byte) : ∃ t, execUplinkByte b x s = .next t ∧ Moves s t := by
  refine ⟨_, rfl, ?_⟩
  split
  · simp only
    have hl : Moves s (s.modBay b fun y => { y with line := ((s.bay b).line.receive x).1 }) :=
      .restAt rfl
    split
    · exact hl
    · exact hl.trans (route_moves _)
  · exact .refl s

/-! ## The tick (log entry 1) -/

theorem step_tick_tag (st : Step) : st.tick.tag = st.tag := by
  unfold Step.tick; split <;> rfl

theorem bay_tick_moves : BayMoves y y.tick := by
  cases hf : y.flight with
  | step st =>
    refine (flight_moves (st' := st.tick) y.link hf (.inr rfl)).tail (.rest ?_)
    simp only [Bay.tick, hf]; rfl
  | empty | held v => exact .rest (by simp only [Bay.tick, hf, Bay.facets]; rfl)

theorem bay_tick_stepsOf : y.tick.stepsOf u = y.stepsOf u := by
  cases hf : y.flight with
  | step st =>
    exact stepsOf_step_congr hf (by simp only [Bay.tick, hf]; rfl) (step_tick_tag st) rfl
  | empty | held v => exact stepsOf_congr (by simp only [Bay.tick, hf]; rfl) rfl

theorem tick_moves : Moves s s.tick :=
  (Moves.mapBays (f := fun _ y => y.tick) (fun _ => bay_tick_moves)
    fun _ _ _ => bay_tick_stepsOf).tail (.link _ (fun h => h) fun h => h)

end Sys2Proof.Machine
end

section
/-! PROOF. The requests and the commands of the station as moves, and with them every command. -/

namespace Sys2Proof.Machine

open Sys2Proof.Claims

variable {s t v : State} {b : BayId} {tag : Tag} {p : List Byte}

/-! ## Answers and arrivals (R164, R166, R168) -/

/-- A change of the station that leaves the Station Link Controller. -/
def Acts (s t : State) : Prop := Moves s t ∧ t.slc = s.slc

theorem Acts.refl (s : State) : Acts s s := ⟨.refl s, rfl⟩

theorem Acts.trans (h : Acts s t) (h' : Acts t v) : Acts s v :=
  ⟨h.1.trans h'.1, h'.2.trans h.2⟩

theorem Acts.forBays {S : BaySet} {f : BayId → State → State}
    (hf : ∀ b s, inSet S b = true → Acts s (f b s)) : Acts s (s.forBays S f) :=
  forBays_keeps (P := fun t => Acts s t) (fun b _ hb h => h.trans (hf b _ hb)) (.refl s)

theorem answer_claimed {k : Byte} {st : Status} {c : Content} :
    (s.answer k tag st c).slc.claimed = s.slc.claimed + 1 := by
  simp only [Slc.claimed, answer_answers, answer_parked, List.length_append, List.length_cons,
    List.length_nil]
  exact Nat.add_right_comm _ _ _

/-- An answer is queued where a place is free. -/
theorem answer_moves {k : Byte} {st : Status} {c : Content} (h : s.slc.claimed < 4) :
    Moves s (s.answer k tag st c) := by
  refine .single (.link (s.answer k tag st c).slc (fun _ => ?_) id)
  rw [answer_claimed]
  exact h

theorem Acts.answer {k : Byte} {st : Status} {c : Content} (ha : Acts s t)
    (h : s.slc.claimed < 4) : Moves s (t.answer k tag st c) :=
  ha.1.trans (answer_moves (by rw [ha.2]; exact h))

theorem arrives_moves {k : Byte} {take : State → State}
    (h : ∀ v : State, v.slc.claimed < 4 → Moves v (take v)) : Moves s (s.arrives k tag p take) := by
  unfold State.arrives State.goodFrame
  split
  · exact .refl s
  · split
    · next hc =>
      exact (Moves.refl s).tail (.link { s.slc with framesDropped := 0, receiver := .hunting } id
        fun _ => Nat.zero_le _) |>.trans (h _ hc)
    · exact .single (.link _ id fun _ => Nat.zero_le _)

theorem checked_moves {k : Byte} {α : Type} {parsed : Option α} {meaningful : α → Bool}
    {owner : α → State} (hc : s.slc.claimed < 4)
    (howner : ∀ r, tag ≠ 0 → Moves s (owner r)) :
    Moves s (s.checked k tag parsed meaningful owner) :=
  checked_keeps (P := fun t => Moves s t) (fun _ => answer_moves hc) fun r _ ht _ => howner r ht

/-- A bay accepted under the pin check is accepted by the owner's own checks. -/
theorem accepted_judge {S : BaySet} {pins : List Pin} {judge : BayId → Option Reason}
    (h : inSet (verdictsOf S fun b => if s.stale pins b then some .stale else judge b).accepted b
      = true) : judge b = none := by
  simp only [inSet_accepted, Bool.and_eq_true, Option.isNone_iff_eq_none] at h
  obtain ⟨-, h⟩ := h
  split at h
  · simp at h
  · exact h

theorem multiBay_moves {k : Byte} {g : Target} {judge : BayId → Option Reason}
    {act : BaySet → State → State} (hc : s.slc.claimed < 4)
    (hact : ∀ S, (∀ b, inSet S b = true → judge b = none) → Acts s (act S s)) :
    Moves s (s.multiBay k tag g judge act) := by
  unfold State.multiBay
  split
  · exact answer_moves hc
  · exact (hact _ fun b hb => accepted_judge hb).answer hc

/-! ## One bay under an applied set (R95, R97) -/

/-- The set point of an output that is on slews (R97, step 1). -/
def Bay.slews (y : Bay) (a : Settings) : Bool :=
  y.power.outputOn && decide ((y.params.store a).supplyMv ≠ y.params.supplyMv)

/-- The stored range_mode after an applied set: a sampling unit takes it as pending (R31). -/
def Bay.configuredMode (y : Bay) (a : Settings) : RangeMode :=
  match a.rangeMode, y.mu.sampling with
  | none, _ => y.params.rangeMode
  | some _, .sampling => y.params.rangeMode
  | some v, .idle => modeOf v
  | some v, .calibrating => modeOf v

/-- The pending range_mode after an applied set (R31). -/
def Bay.configuredPending (y : Bay) (a : Settings) : Option RangeMode :=
  match a.rangeMode, y.mu.sampling with
  | none, _ => y.mu.pendingRange
  | some v, .sampling => some (modeOf v)
  | some _, .idle => y.mu.pendingRange
  | some _, .calibrating => y.mu.pendingRange

/-- The unit after an applied set, before a restart of its monitor. -/
def Bay.configuredUnit (y : Bay) (a : Settings) : Mu :=
  { (if y.slews a && (y.params.store a).settleOnChanges then
      y.mu.settleTrigger (y.params.store a).settleMs else y.mu) with
    pendingRange := y.configuredPending a }

/-- The bay line after an applied set (R69). -/
def Bay.configuredLine (y : Bay) (a : Settings) : Line :=
  match a.linkRate with
  | none => y.line
  | some v => y.line.setRate (rateOf v)

theorem settleTrigger_eq (m : Mu) (ms : Nat) : m.settleTrigger ms = { m with
    settleTimer := (m.settleTrigger ms).settleTimer
    periodSettle := (m.settleTrigger ms).periodSettle } := by
  obtain ⟨st, ps, h⟩ := settleTrigger_rest m ms
  rw [h]

/-- All that an applied set does to an accepted bay: parameters, supply, line and unit, and nothing
else. -/
theorem configure_eq (y : Bay) (a : Settings) : y.configure a = { y with
    params := { y.params.store a with rangeMode := y.configuredMode a }
    supply := { y.supply with
      setMv := if y.slews a then (y.params.store a).supplyMv else y.supply.setMv
      limitMa := (y.params.store a).limitMa, brownoutMv := (y.params.store a).brownoutMv }
    line := y.configuredLine a
    mu := if a.touchesMonitor then (y.configuredUnit a).restartMonitor (y.params.store a)
      else y.configuredUnit a } := by
  have hlimits : (Bay.slew { y with params := y.params.store a } y.params.supplyMv).setLimits
      = { y with
          params := y.params.store a
          supply := { y.supply with
            setMv := if y.slews a then (y.params.store a).supplyMv else y.supply.setMv
            limitMa := (y.params.store a).limitMa, brownoutMv := (y.params.store a).brownoutMv }
          mu := if y.slews a && (y.params.store a).settleOnChanges then
            y.mu.settleTrigger (y.params.store a).settleMs else y.mu } := by
    by_cases hs : y.slews a = true
    · have hslew : Bay.slew { y with params := y.params.store a } y.params.supplyMv = { y with
          params := y.params.store a
          supply := { y.supply with setMv := (y.params.store a).supplyMv }
          mu := if (y.params.store a).settleOnChanges then
            y.mu.settleTrigger (y.params.store a).settleMs else y.mu } := if_pos hs
      simp [hslew, Bay.setLimits, hs]
    · have hslew : Bay.slew { y with params := y.params.store a } y.params.supplyMv
          = { y with params := y.params.store a } := if_neg hs
      simp [hslew, Bay.setLimits, hs]
  have hrate (z : Bay) (h : z.line = y.line) : z.setRate a = { z with line := y.configuredLine a } := by
    unfold Bay.setRate Bay.configuredLine
    cases a.linkRate with
    | none => rw [← h]
    | some v => simp [h]
  have hmode (z : Bay) (h1 : z.mu.sampling = y.mu.sampling)
      (h2 : z.params.rangeMode = y.params.rangeMode) (h3 : z.mu.pendingRange = y.mu.pendingRange) :
      z.setMode a = { z with
        params := { z.params with rangeMode := y.configuredMode a }
        mu := { z.mu with pendingRange := y.configuredPending a } } := by
    unfold Bay.setMode
    split
    · next ha =>
      have hr : y.configuredMode a = z.params.rangeMode := by simp [Bay.configuredMode, ha, h2]
      have hp : y.configuredPending a = z.mu.pendingRange := by simp [Bay.configuredPending, ha, h3]
      rw [hr, hp]
    · next v ha =>
      split
      · next hs =>
        have hr : y.configuredMode a = z.params.rangeMode := by
          simp [Bay.configuredMode, ha, ← h1, hs, h2]
        have hp : y.configuredPending a = some (modeOf v) := by
          simp [Bay.configuredPending, ha, ← h1, hs]
        rw [hr, hp]
      · next hs =>
        have hr : y.configuredMode a = modeOf v := by
          simp [Bay.configuredMode, ha, ← h1, hs]
        have hp : y.configuredPending a = z.mu.pendingRange := by
          simp [Bay.configuredPending, ha, ← h1, hs, h3]
        rw [hr, hp]
      · next hs =>
        have hr : y.configuredMode a = modeOf v := by
          simp [Bay.configuredMode, ha, ← h1, hs]
        have hp : y.configuredPending a = z.mu.pendingRange := by
          simp [Bay.configuredPending, ha, ← h1, hs, h3]
        rw [hr, hp]
  unfold Bay.configure
  simp only [hlimits]
  have hunit (q : Bool) : (if q then y.mu.settleTrigger (y.params.store a).settleMs else y.mu).sampling
        = y.mu.sampling
      ∧ (if q then y.mu.settleTrigger (y.params.store a).settleMs else y.mu).pendingRange
        = y.mu.pendingRange := by
    cases q
    · exact ⟨rfl, rfl⟩
    · rw [settleTrigger_eq]; exact ⟨rfl, rfl⟩
  rw [hrate, hmode]
  · unfold Bay.restartMonitor
    split <;> rfl
  · exact (hunit _).1
  · rfl
  · exact (hunit _).2
  · rfl

theorem configure_stepsOf {y : Bay} {a : Settings} {u : Tag} :
    (y.configure a).stepsOf u = y.stepsOf u := by
  rw [configure_eq]; rfl

/-! ## The requests -/

theorem mapBays_acts {f : BayId → Bay → Bay} (h : Moves s (s.mapBays f)) : Acts s (s.mapBays f) :=
  ⟨h, mapBays_slc f⟩

theorem requestPowerOn_moves (hc : s.slc.claimed < 4) : Moves s (s.requestPowerOn tag p) := by
  refine checked_moves hc fun r _ => multiBay_moves hc fun S hj => mapBays_acts ?_
  exact .ifBay (fun b hb => .single (.powering _ (hj b hb))) fun _ _ => rfl

theorem completeMonitor_acts : Acts s (s.completeMonitor b) := by
  obtain ⟨-, -, -, -, -, h, -⟩ := completeMonitor_frame (s := s) (b := b)
  exact ⟨completeMonitor_moves, h⟩

theorem completeExchange_acts : Acts s (s.completeExchange b) :=
  ⟨completeExchange_moves, completeExchange_frame.slc⟩

theorem supplyOff_slc : (s.supplyOff b).slc = s.slc := by
  unfold State.supplyOff
  split
  · exact (completeMonitor_acts.trans completeExchange_acts).2
  · rfl

theorem powerOffBay_acts : Acts s (s.powerOffBay b) := by
  refine ⟨powerOffBay_moves, ?_⟩
  have h : (((s.supplyOff b).endSteps b .powerLost).modBay b fun y => y.powerDown .off).slc = s.slc :=
    endSteps_frame.slc.trans supplyOff_slc
  unfold State.powerOffBay
  cases (s.bay b).power with
  | powering | booting | on => exact h
  | none | off | tripped => rfl

theorem requestPowerOff_moves (hc : s.slc.claimed < 4) : Moves s (s.requestPowerOff tag p) :=
  checked_moves hc fun _ _ => multiBay_moves hc fun _ _ => .forBays fun _ _ _ => powerOffBay_acts

theorem requestZero_moves (hc : s.slc.claimed < 4) : Moves s (s.requestZero tag p) := by
  refine checked_moves hc fun r _ => multiBay_moves hc fun S hj => mapBays_acts ?_
  exact .ifBay (fun b hb => .single (.zero (hj b hb))) fun _ _ => rfl

theorem requestDefineGroup_moves (hc : s.slc.claimed < 4) : Moves s (s.requestDefineGroup tag p) := by
  refine checked_moves hc fun r _ => ?_
  split
  · exact answer_moves hc
  · exact Acts.answer ⟨.single (.settings _ _), rfl⟩ hc

theorem answerDrop_moves (hc : s.slc.claimed < 4) (q : Fin 16 → Bool) :
    Moves s (s.answerDrop tag q) :=
  Acts.answer ⟨.single (.settings _ _), rfl⟩ hc

theorem requestDropGroups_moves (hc : s.slc.claimed < 4) : Moves s (s.requestDropGroups tag p) := by
  refine checked_moves hc fun r _ => ?_
  split
  · split
    · split
      · exact answerDrop_moves hc _
      · exact answer_moves hc
    · exact answer_moves hc
  · exact answerDrop_moves hc _
  · exact answerDrop_moves hc _

/-! ## CONFIGURE_BAY -/

theorem configureBays_acts (x : Settings) (S : BaySet) : Acts s (s.configureBays x.applied S) := by
  unfold State.configureBays
  simp only
  have hm : Acts s (if x.applied.touchesMonitor then s.forBays S fun b s => s.completeMonitor b
      else s) := by
    split
    · exact .forBays fun _ _ _ => completeMonitor_acts
    · exact .refl s
  exact hm.trans (mapBays_acts (.ifBay (fun b _ => .single (.configure x))
    fun _ _ => configure_stepsOf))

theorem requestConfigureBay_moves (hc : s.slc.claimed < 4) :
    Moves s (s.requestConfigureBay tag p) := by
  refine checked_moves hc fun r _ => ?_
  split
  · exact answer_moves hc
  · exact (configureBays_acts _ _).answer hc

theorem sendRefusal_none {text : List Byte} (h : s.sendRefusal tag text = none) :
    s.exchange? tag = none ∧ s.exchanges.length < Config.exchangeRecords := by
  unfold State.sendRefusal at h
  split_ifs at h with h1 h2
  exact ⟨by simpa using h1, by omega⟩

theorem startExchange_slc (r : SendRequest) (w : Option WindowSpec) (S : BaySet) :
    (s.startExchange r tag w S).slc = s.slc := by
  unfold State.startExchange
  split
  · rfl
  · rw [mapBays_slc]

theorem requestSend_moves (hc : s.slc.claimed < 4) : Moves s (s.requestSend tag p) := by
  refine checked_moves hc fun r ht => ?_
  split
  · exact answer_moves hc
  · next hr =>
    obtain ⟨hx, hn⟩ := sendRefusal_none hr
    split
    · exact answer_moves hc
    · next w _ =>
      exact multiBay_moves hc fun S hj =>
        ⟨.single (.send r tag w S ht hx hn hj), startExchange_slc r w S⟩

/-! ## CANCEL (R117) -/

theorem queuedStep?_tag {ps : List Place} {st : Step} (h : queuedStep? tag ps = some st) :
    st.tag = tag := by
  induction ps with
  | nil => simp [queuedStep?] at h
  | cons q ps ih =>
    cases q with
    | held u => exact ih h
    | step st' =>
      simp only [queuedStep?] at h
      split at h
      · next ht => cases h; exact ht
      · exact ih h

/-- The end of the queued step of an exchange takes one step of it away. -/
theorem endPlaceOf_count {ps : List Place} {st : Step} (h : queuedStep? tag ps = some st)
    (placed : Bool) (u : Tag) : ((endPlaceOf tag placed ps).filter (Place.isStepOf u)).length
      + (if tag = u then 1 else 0) = (ps.filter (Place.isStepOf u)).length := by
  induction ps with
  | nil => simp [queuedStep?] at h
  | cons q ps ih =>
    cases q with
    | held v => simpa [endPlaceOf, Place.isStepOf] using ih h
    | step st' =>
      simp only [queuedStep?] at h
      simp only [endPlaceOf]
      split at h
      · next ht => cases placed <;> by_cases hu : tag = u <;> simp [ht, hu, Place.isStepOf]
      · next ht =>
        have := ih h
        rw [if_neg ht]
        by_cases hu : st'.tag = u <;> simp [hu, Place.isStepOf] <;> omega

theorem endPlaceOf_length (placed : Bool) (ps : List Place) :
    (endPlaceOf tag placed ps).length ≤ ps.length := by
  fun_induction endPlaceOf tag placed ps <;> grind

theorem cancelQueued_moves : Moves s (s.cancelQueued tag b) := by
  unfold State.cancelQueued
  split
  · exact .refl s
  · next st hq =>
    have ht := queuedStep?_tag hq
    simp only [modBay_eq, handOver_bay]
    refine .single (.finals b [s.finalOf b st.ended (st.replyAt .cancelled)] _ ?_
      (by simp [State.finalOf]) fun u => ?_)
    · exact .single (.relinked _ _ (.inl rfl) (endPlaceOf_length _ _))
    · have hn := endPlaceOf_count hq
        (s.handOver (s.finalOf b st.ended (st.replyAt .cancelled))).2 u
      rw [stepsOf_relink]
      by_cases hu : tag = u <;>
        simp [Bay.stepsOf, State.finalOf, ht, hu] at hn ⊢ <;> omega

theorem flightEnded_relink_moves {y : Bay} (ms : List Bool) :
    BayMoves y (y.flightEnded ms).relink := by
  refine (BayMoves.rest (y := y) (z := { y with
    windowDelay := if y.flight.isStep then none else y.windowDelay }) rfl).trans ?_
  refine (BayMoves.one (.window y.mu.exchangeAcc.freed fun h => absurd rfl h)).trans ?_
  exact .single (.relinked _ _ (.inr (flight_after_no_step _ _)) le_rfl)

theorem stepsOf_of_no_flight {y : Bay} {u : Tag} (h : y.flight.isStep = false) :
    y.stepsOf u = (y.places.filter (Place.isStepOf u)).length := by
  unfold Bay.stepsOf
  cases hf : y.flight with
  | step st => simp [hf, Flight.isStep] at h
  | empty | held v => exact Nat.zero_add _

theorem cancelFlight_moves : Moves s ((s.endFlight b .cancelled).modBay b Bay.relink) := by
  rw [endFlight_eq, modBay_eq, setBay_bay_same, setBay_setBay]
  refine .single (.finals b _ _ (flightEnded_relink_moves _) (fun r hr => ?_) fun u => ?_)
  · exact endedFinals_of_bay r (List.mem_append_left _ hr)
  · rw [stepsOf_relink]
    rw [stepsOf_of_no_flight (flight_after_no_step _ _)]
    unfold flightFinals Bay.stepsOf
    cases (s.bay b).flight with
    | step st => by_cases hu : st.tag = u <;> simp [Bay.flightEnded, finalResult, hu, Nat.add_comm]
    | empty | held v => simp [Bay.flightEnded]

theorem cancelAt_acts : Acts s (s.cancelAt tag b) := by
  have hslc : (s.cancelQueued tag b).slc = s.slc := by
    unfold State.cancelQueued
    split
    · rfl
    · exact (handOver_frame (b := b)).slc
  unfold State.cancelAt
  split
  · exact ⟨cancelQueued_moves, hslc⟩
  · exact ⟨cancelFlight_moves, endFlight_frame.slc⟩
  · exact ⟨cancelFlight_moves, endFlight_frame.slc⟩
  · exact .refl s

theorem cancelExchange_moves (hc : s.slc.claimed < 4) (x : Exchange) :
    Moves s (s.cancelExchange tag x) := by
  unfold State.cancelExchange
  split
  · exact answer_moves hc
  · have hb : Acts s (s.forBays x.pending fun b s => s.cancelAt tag b) :=
      .forBays fun _ _ _ => cancelAt_acts
    exact (hb.trans ⟨.single (.cancelled tag), rfl⟩).answer hc

theorem completePending_acts : Acts s (s.completePending tag) := by
  unfold State.completePending
  split
  · exact .refl s
  · exact .forBays fun _ _ _ => completeExchange_acts

theorem requestCancel_moves (hc : s.slc.claimed < 4) : Moves s (s.requestCancel tag p) := by
  refine checked_moves hc fun r _ => (completePending_acts (tag := tag)).1.trans ?_
  have hc' : (s.completePending tag).slc.claimed < 4 := by rw [completePending_acts.2]; exact hc
  unfold State.decideCancel
  split
  · exact answer_moves hc'
  · exact cancelExchange_moves hc' _

/-! ## SYNC, QUERY_BAY and the parked slot (R139 to R142, R169) -/

theorem retest_moves : Moves s s.retest := .single (.batching _ _ _)

theorem park_moves {q : Parked} {mark : Entry → Entry} (hc : s.slc.claimed < 4)
    (hm : ∀ e, mark e = { e with
      age := (mark e).age, syncMark := (mark e).syncMark, queryMark := (mark e).queryMark })
    (hall : ∀ e, (mark e).marked = true) : Moves s (s.park q mark) := by
  unfold State.park
  have h1 : Move s { s with clb := { s.clb with
      entries := s.clb.entries.map mark, markCount := s.clb.entries.length } } := by
    refine .entries mark _ hm fun _ => ?_
    rw [List.filter_eq_self.mpr (by simpa using fun e _ => hall e), List.length_map]
  refine ((Relation.ReflTransGen.single h1).tail (.link { s.slc with parked := some q } ?_ id)).trans retest_moves
  intro _
  have : s.slc.answers.length < 4 := by simp only [Slc.claimed] at hc; omega
  simp only [Slc.claimed, Option.isSome_some, if_true, Config.answerPlaces]
  omega

theorem requestSync_moves (hc : s.slc.claimed < 4) : Moves s (s.requestSync tag p) := by
  refine checked_moves hc fun _ _ => ?_
  unfold State.syncDecided
  split
  · exact answer_moves hc
  · split
    · exact answer_moves hc
    · exact park_moves hc (fun _ => rfl) fun _ => by simp [Entry.marked]

theorem queryDecided_moves (hc : s.slc.claimed < 4) : Moves s (s.queryDecided tag b) := by
  unfold State.queryDecided
  split
  · exact answer_moves hc
  · split
    · exact answer_moves hc
    · exact park_moves hc (fun _ => rfl) fun _ => by simp [Entry.marked]

theorem requestQueryBay_moves (hc : s.slc.claimed < 4) : Moves s (s.requestQueryBay tag p) := by
  refine checked_moves hc fun n _ => ?_
  split
  · split
    · exact queryDecided_moves hc
    · exact answer_moves hc
  · exact answer_moves hc

/-- A parked request's answer takes the place that the request held (R169). -/
theorem unpark_answer_claimed {q : Parked} (h : s.slc.parked = some q) (k : Byte) (st : Status)
    (c : Content) : (({ s with slc := { s.slc with parked := none } } : State).answer
      k tag st c).slc.claimed = s.slc.claimed := by
  rw [answer_claimed]
  simp [Slc.claimed, h]

theorem unpark_answer_moves {q : Parked} (h : s.slc.parked = some q) (k : Byte) (st : Status)
    (c : Content) :
    Moves s (({ s with slc := { s.slc with parked := none } } : State).answer k tag st c) :=
  .single (.link (State.slc (State.answer _ k tag st c))
    (fun hc => by rw [unpark_answer_claimed h]; exact hc) id)

theorem completeParked_moves : Moves s s.completeParked := by
  unfold State.completeParked
  simp only
  split
  · exact .refl s
  · next h => exact unpark_answer_moves h _ _ _
  · next h => exact unpark_answer_moves h _ _ _

/-! ## Attention and the station (R152, R154, R174, R176) -/

theorem ackFlag_acts {c : AttClass} : Acts s (s.ackFlag b c) := by
  unfold State.ackFlag
  split
  · exact ⟨.single (.clear b c), rfl⟩
  · exact .refl s

theorem ackBay_acts {classes : BitVec 16} : Acts s (s.ackBay classes b) := by
  unfold State.ackBay
  generalize allClasses = l
  induction l generalizing s with
  | nil => exact .refl s
  | cons c l ih =>
    rw [List.foldl_cons]
    split
    · exact ackFlag_acts.trans ih
    · exact ih

theorem requestAckAttention_moves (hc : s.slc.claimed < 4) :
    Moves s (s.requestAckAttention tag p) := by
  refine checked_moves hc fun r _ => ?_
  split
  · exact answer_moves hc
  · exact Acts.answer (.forBays fun _ _ _ => ackBay_acts) hc

theorem requestIdentify_moves (hc : s.slc.claimed < 4) : Moves s (s.requestIdentify tag p) :=
  checked_moves hc fun _ _ => answer_moves hc

theorem reevaluateFlag_frame (x : BayId × AttClass) : SameBesidesAtu s (s.reevaluateFlag x) := by
  unfold State.reevaluateFlag
  simp only
  split
  · split
    · exact setFlag_frame.trans enqueueNotice_frame
    · exact setFlag_frame
  all_goals exact .refl s

theorem reevaluate_frame : SameBesidesAtu s s.reevaluate := by
  unfold State.reevaluate
  have h : SameBesidesAtu s { s with atu := { s.atu with queue := [] } } :=
    ⟨rfl, rfl, rfl, rfl, rfl, rfl, rfl, rfl⟩
  revert h
  generalize ({ s with atu := { s.atu with queue := [] } } : State) = v
  generalize allFlags = l
  induction l generalizing v with
  | nil => exact id
  | cons x l ih => exact fun h => ih _ (h.trans (reevaluateFlag_frame x))

theorem Acts.retestIf {q : Bool} (h : Acts s t) : Acts s (if q then t.retest else t) := by
  cases q
  · exact h
  · exact h.trans ⟨retest_moves, rfl⟩

/-- The values of a CONFIGURE_STATION outside the Attention Unit, applied. -/
theorem storeStation_acts (r : StationSettings) : Acts s { s with
    seatDebounceMs := (s.storeStation r).seatDebounceMs, clb := (s.storeStation r).clb } := by
  have h1 : Acts s { s with seatDebounceMs := (s.storeStation r).seatDebounceMs } :=
    ⟨.single (.settings s.groups _), rfl⟩
  exact h1.trans ⟨.single (.batching s.clb.offer (s.storeStation r).clb.pressure
    (s.storeStation r).clb.holdMs), rfl⟩

theorem storeStation_of_absent {r : StationSettings} (h : r.threshold = none) (h' : r.levels = none) :
    s.storeStation r = { s with
      seatDebounceMs := (s.storeStation r).seatDebounceMs, clb := (s.storeStation r).clb } := by
  simp [State.storeStation, h, h']

theorem configureStation_acts (r : StationSettings) : Acts s (s.configureStation r) := by
  refine Acts.retestIf ?_
  split
  · refine (storeStation_acts r).trans ⟨.single (.levels (s.storeStation r).atu.levels _), ?_⟩
    exact reevaluate_frame.slc
  · next h =>
    have hn : r.threshold = none ∧ r.levels = none := by simpa using h
    rw [storeStation_of_absent hn.1 hn.2]
    exact storeStation_acts r

theorem requestConfigureStation_moves (hc : s.slc.claimed < 4) :
    Moves s (s.requestConfigureStation tag p) :=
  checked_moves hc fun _ _ => (configureStation_acts _).answer hc

theorem answerParkedReset_moves : Moves s s.answerParkedReset := by
  unfold State.answerParkedReset
  simp only
  split
  · exact .refl s
  · next h => exact unpark_answer_moves h _ _ _
  · next h => exact unpark_answer_moves h _ _ _

theorem answerParkedReset_claimed : s.answerParkedReset.slc.claimed = s.slc.claimed := by
  unfold State.answerParkedReset
  simp only
  split
  · rfl
  · next h => exact unpark_answer_claimed h _ _ _
  · next h => exact unpark_answer_claimed h _ _ _

theorem raiseSeated_acts : Acts s s.raiseSeated :=
  .forBays fun b _ _ => ⟨Moves.raise b .seated .none, raiseFlag_slc⟩

theorem stationReset_moves : Moves s s.stationReset :=
  (Relation.ReflTransGen.single .blocksReset).trans raiseSeated_acts.1

theorem stationReset_slc : s.stationReset.slc = { s.slc with framesDropped := 0 } := by
  rw [stationReset_eq, raiseSeated_acts.2]
  simp [State.blocksReset]

theorem requestResetStation_moves (hc : s.slc.claimed < 4) :
    Moves s (s.requestResetStation tag p) := by
  refine checked_moves hc fun _ _ => ?_
  refine (answerParkedReset_moves.trans stationReset_moves).trans (answer_moves ?_)
  rw [stationReset_slc]
  have := answerParkedReset_claimed (s := s)
  simp only [Slc.claimed] at *
  omega

/-! ## The taking of a body (R166, R167) -/

theorem takeRequest_moves (k : Byte) (hc : s.slc.claimed < 4) : Moves s (s.takeRequest k tag p) := by
  unfold State.takeRequest
  split
  · exact requestIdentify_moves hc
  · exact requestConfigureStation_moves hc
  · exact requestConfigureBay_moves hc
  · exact requestDefineGroup_moves hc
  · exact requestDropGroups_moves hc
  · exact requestPowerOn_moves hc
  · exact requestPowerOff_moves hc
  · exact requestZero_moves hc
  · exact requestSend_moves hc
  · exact requestCancel_moves hc
  · exact requestSync_moves hc
  · exact requestQueryBay_moves hc
  · exact requestAckAttention_moves hc
  · exact requestResetStation_moves hc
  · exact answer_moves hc

theorem takeBody_moves (body : List Byte) (hc : s.slc.claimed < 4) : Moves s (s.takeBody body) := by
  unfold State.takeBody
  split
  · exact takeRequest_moves _ hc
  all_goals exact .refl s

theorem withReceiver_moves (r : Receiver) : Moves s (s.withReceiver r) :=
  .single (.link _ id id)

theorem discardFrame_moves (r : Receiver) : Moves s (s.discardFrame r) := by
  refine .single (.link _ id fun _ => ?_)
  simp only [saturate]; omega

theorem takeLength_moves (x : Byte) : Moves s (s.takeLength x) := by
  unfold State.takeLength
  simp only
  split
  · exact withReceiver_moves _
  · split
    · exact withReceiver_moves _
    · exact discardFrame_moves _

theorem goodFrame_moves (body : List Byte) : Moves s (s.goodFrame body (State.takeBody body)) := by
  unfold State.goodFrame
  split
  · next hc =>
    exact (Moves.refl s).tail (.link { s.slc with framesDropped := 0, receiver := .hunting } id
      fun _ => Nat.zero_le _) |>.trans (takeBody_moves body hc)
  · exact .single (.link _ id fun _ => Nat.zero_le _)

theorem takeCheck_moves (x : Byte) : Moves s (s.takeCheck x) := by
  unfold State.takeCheck
  simp only
  split
  · exact withReceiver_moves _
  · split
    · exact goodFrame_moves _
    · exact discardFrame_moves _

theorem byteTaken_moves (x : Byte) : ∃ t, execByteTakenFromPipe x s = .next t ∧ Moves s t := by
  refine ⟨_, rfl, ?_⟩
  split
  · exact .refl s
  · split
    · exact withReceiver_moves _
    · exact takeLength_moves x
    · exact withReceiver_moves _
    · exact takeCheck_moves x

theorem frameDiscarded_moves (c : DiscardCause) :
    ∃ t, execFrameDiscarded c s = .next t ∧ Moves s t := by
  refine ⟨_, rfl, ?_⟩
  split
  · exact .refl s
  · split
    · exact discardFrame_moves _
    · split
      · exact .refl s
      · exact discardFrame_moves _

/-! ## The outgoing pipe (R172) -/

theorem transmit_moves (src : Source) (k : Byte) : Moves s (s.transmit src k tag p) :=
  .single (.link _ id id)

theorem freeTransmitter_moves : Moves s s.freeTransmitter := .single (.link _ id id)

theorem takeAnswer_moves : ∃ t, execTakeAnswer s = .next t ∧ Moves s t := by
  refine ⟨_, rfl, ?_⟩
  split
  · next a rest _ h =>
    refine (Moves.refl s).tail (.link { s.slc with answers := rest } (fun hc => ?_) id)
      |>.trans (transmit_moves _ _)
    simp only [Slc.claimed, h, List.length_cons] at hc ⊢
    omega
  · exact .refl s

theorem takeLogLine_moves : ∃ t, execTakeLogLine s = .next t ∧ Moves s t := by
  refine ⟨_, rfl, ?_⟩
  split
  · next l rest _ h =>
    refine (Moves.refl s).tail (.log rest _ fun hc => ?_) |>.trans (transmit_moves _ _)
    rw [h, List.length_cons] at hc
    omega
  · exact .refl s

theorem takeAttentionNotice_moves : ∃ t, execTakeAttentionNotice s = .next t ∧ Moves s t := by
  refine ⟨_, rfl, ?_⟩
  split
  · next b c rest _ h =>
    exact (Moves.refl s).tail (.noticeTaken b c rest h) |>.trans (transmit_moves _ _)
  · exact .refl s

theorem takeBatchEntry_moves : ∃ t, execTakeBatchEntry s = .next t ∧ Moves s t := by
  refine ⟨_, rfl, ?_⟩
  split
  · next e rest _ h => exact (Moves.refl s).tail (.batchTaken e rest h) |>.trans (transmit_moves _ _)
  · exact .refl s

theorem frameEnd_moves : ∃ t, execFrameEndOfTransmission s = .next t ∧ Moves s t := by
  refine ⟨_, rfl, ?_⟩
  split
  · exact freeTransmitter_moves
  · exact freeTransmitter_moves
  all_goals exact .refl s

theorem attentionEnd_moves : ∃ t, execAttentionEndOfTransmission s = .next t ∧ Moves s t := by
  refine ⟨_, rfl, ?_⟩
  split
  · exact (Relation.ReflTransGen.single (.noticeEnded _ _)).trans freeTransmitter_moves
  all_goals exact .refl s

theorem batchEnded_moves {e : Entry} {rest : List Entry} (h : s.clb.entries = e :: rest) :
    Moves s (s.batchEnded e rest) := by
  unfold State.batchEnded
  simp only
  refine (Moves.refl s).tail (.batchEnd e rest h) |>.trans (.trans ?_ retest_moves)
  split
  · exact completeParked_moves
  · exact .refl

theorem batchEnd_moves : ∃ t, execBatchEndOfTransmission s = .next t ∧ Moves s t := by
  refine ⟨_, rfl, ?_⟩
  split
  · next h => exact (batchEnded_moves h).trans freeTransmitter_moves
  · exact .refl s

theorem batchAgeTick_moves : ∃ t, execBatchAgeTick s = .next t ∧ Moves s t := by
  refine ⟨_, rfl, (Relation.ReflTransGen.single ?_).trans retest_moves⟩
  refine .entries Entry.tick _ (fun _ => rfl) fun h => ?_
  rw [h.marks, List.filter_map, List.length_map]
  rfl

/-! ## Every command -/

theorem usbBusReset_moves : ∃ t, execUsbBusReset s = .next t ∧ Moves s t :=
  ⟨_, rfl, stationReset_moves.tail (.link _ (fun _ => Nat.zero_le _) fun _ => Nat.zero_le _)⟩

theorem bootDeadline_moves : ∃ t, execBootDeadlineExpiry b s = .next t ∧ Moves s t := by
  refine ⟨_, rfl, ?_⟩
  split
  · exact (Moves.restAt (f := fun y => { y with bootDeadline := none }) rfl).trans (Moves.raise _ _ _)
  · exact .refl s

theorem keyTimer_moves : ∃ t, execKeyTimerExpiry b s = .next t ∧ Moves s t := by
  refine ⟨_, rfl, ?_⟩
  split
  · next h =>
    split
    · exact (Moves.modBay (enterOnEarly_moves h.1) fun _ _ => enterOn_stepsOf 0).trans
        (Moves.raise _ _ _)
    · exact .modBay (enterBooting_moves h.1) fun _ _ => rfl
  · exact .refl s

theorem Moves.ite {q : Prop} [Decidable q] (h : q → Moves s t) : Moves s (if q then t else s) := by
  split
  · next hq => exact h hq
  · exact .refl s

/-- Every command but a completed seating and a power-on reset is a sequence of moves. -/
theorem exec_moves (c : Instr) (s : State) (hseat : ∀ b, c ≠ .seatDebounceExpiry b)
    (hreset : ∀ p q, c ≠ .powerOnReset p q) : ∃ t, exec c s = .next t ∧ Moves s t := by
  cases c with
  | seatDebounceExpiry b => exact absurd rfl (hseat b)
  | powerOnReset p q => exact absurd rfl (hreset p q)
  | sensorCloses b => exact ⟨_, rfl, .ite fun _ =>
      .modBay (sensorCloses_moves _) fun _ _ => sensorCloses_stepsOf _⟩
  | sensorOpens b => exact ⟨_, rfl, .ite fun _ =>
      .modBay sensorOpens_moves fun _ _ => sensorOpens_stepsOf⟩
  | removalTimerExpiry b => exact ⟨_, rfl, .ite fun _ => remove_moves⟩
  | outputGood b => exact ⟨_, rfl, .modBay outputGoodReport_moves fun _ _ => outputGoodReport_stepsOf⟩
  | limitEngaged b => exact ⟨_, rfl, .restAt limitEngagedReport_facets⟩
  | limitReleased b => exact ⟨_, rfl, .restAt limitReleasedReport_facets⟩
  | belowBrownout b => exact ⟨_, rfl, .restAt belowBrownoutReport_facets⟩
  | aboveBrownout b => exact ⟨_, rfl, .restAt aboveBrownoutReport_facets⟩
  | riseTimerExpiry b => exact ⟨_, rfl, .ite fun h => trip_moves (by rw [h.1]; rfl)⟩
  | keyTimerExpiry b => exact keyTimer_moves
  | bootDeadlineExpiry b => exact bootDeadline_moves
  | limitTripTimerExpiry b => exact ⟨_, rfl, .ite fun h => trip_moves h.1⟩
  | brownoutTripTimerExpiry b => exact ⟨_, rfl, .ite fun h => trip_moves h.1⟩
  | powerOn tag p => exact ⟨_, rfl, arrives_moves fun _ hc => requestPowerOn_moves hc⟩
  | powerOff tag p => exact ⟨_, rfl, arrives_moves fun _ hc => requestPowerOff_moves hc⟩
  | zero tag p => exact ⟨_, rfl, arrives_moves fun _ hc => requestZero_moves hc⟩
  | calibrationEnd b => exact ⟨_, rfl, endCalibration_moves⟩
  | configureBay tag p => exact ⟨_, rfl, arrives_moves fun _ hc => requestConfigureBay_moves hc⟩
  | defineGroup tag p => exact ⟨_, rfl, arrives_moves fun _ hc => requestDefineGroup_moves hc⟩
  | dropGroups tag p => exact ⟨_, rfl, arrives_moves fun _ hc => requestDropGroups_moves hc⟩
  | send tag p => exact ⟨_, rfl, arrives_moves fun _ hc => requestSend_moves hc⟩
  | cancel tag p => exact ⟨_, rfl, arrives_moves fun _ hc => requestCancel_moves hc⟩
  | sync tag p => exact ⟨_, rfl, arrives_moves fun _ hc => requestSync_moves hc⟩
  | queryBay tag p => exact ⟨_, rfl, arrives_moves fun _ hc => requestQueryBay_moves hc⟩
  | ackAttention tag p => exact ⟨_, rfl, arrives_moves fun _ hc => requestAckAttention_moves hc⟩
  | identify tag p => exact ⟨_, rfl, arrives_moves fun _ hc => requestIdentify_moves hc⟩
  | configureStation tag p =>
    exact ⟨_, rfl, arrives_moves fun _ hc => requestConfigureStation_moves hc⟩
  | resetStation tag p => exact ⟨_, rfl, arrives_moves fun _ hc => requestResetStation_moves hc⟩
  | unknownKindRequest k tag p =>
    refine ⟨_, rfl, ?_⟩
    split
    · exact .refl s
    · exact arrives_moves fun _ hc => answer_moves hc
  | periodBoundary b c => exact ⟨_, rfl, periodBoundary_moves c⟩
  | windowCompletion b w =>
    refine ⟨_, rfl, ?_⟩
    cases w with
    | monitor => exact completeMonitor_moves
    | exchange => exact completeExchange_moves
  | settleTimerExpiry b =>
    exact ⟨_, rfl, .restAt (f := fun y => { y with mu := { y.mu with settleTimer := none } }) rfl⟩
  | uplinkByte b x => exact uplinkByte_moves x
  | framingFault b => exact ⟨_, rfl, .ite fun _ =>
      .restAt (f := fun y => { y with line := y.line.framingFault }) rfl⟩
  | lineTimerExpiry b => exact ⟨_, rfl, .ite fun _ => .restAt (f := fun y =>
      { y with line := { y.line.lineOver.countGarbage with crEnd := false } }) rfl⟩
  | downlinkEndOfTransmission b => exact downlinkEnd_moves
  | stepDispatch b => exact stepDispatch_moves
  | replyDeadlineExpiry b => exact replyDeadlineExpiry_moves
  | windowDelayExpiry b => exact windowDelayExpiry_moves
  | batchAgeTick => exact batchAgeTick_moves
  | takeAnswer => exact takeAnswer_moves
  | heldFrameTaken =>
    refine ⟨_, rfl, .ite fun h => ?_⟩
    have hc : s.slc.claimed < 4 := by
      rw [Bool.and_eq_true, decide_eq_true_eq] at h
      exact h.2
    exact (withReceiver_moves _).trans (takeBody_moves _ hc)
  | takeAttentionNotice => exact takeAttentionNotice_moves
  | takeBatchEntry => exact takeBatchEntry_moves
  | takeLogLine => exact takeLogLine_moves
  | batchEndOfTransmission => exact batchEnd_moves
  | heldResultPlacement => exact ⟨_, rfl, (Relation.ReflTransGen.single .placing).trans retest_moves⟩
  | parkedRequestCompletion => exact ⟨_, rfl, .ite fun _ => completeParked_moves⟩
  | attentionEndOfTransmission => exact attentionEnd_moves
  | frameEndOfTransmission => exact frameEnd_moves
  | frameDiscarded c => exact frameDiscarded_moves c
  | gapTimerExpiry => exact ⟨_, rfl, .ite fun _ => discardFrame_moves _⟩
  | usbBusReset => exact usbBusReset_moves
  | byteTakenFromPipe x => exact byteTaken_moves x

end Sys2Proof.Machine
end

section
/-! PROOF. Placement passes (R130), and what every move does to one bay. -/

namespace Sys2Proof.Machine

open Sys2Proof.Claims

variable {s t : State} {b : BayId} {y z : Bay}

/-! ## A placement pass, exactly (R115, R130) -/

/-- The bay after the held results placed in a pass have been freed there, one after another. -/
def Bay.freed (b : BayId) (placed : List Result) (y : Bay) : Bay :=
  (placed.filter fun r => decide (r.bay = b)).foldl (fun y r => y.freeHeld r.tag) y

/-- A pass takes a front part of the queue, places it result by result, and frees it at the bays. -/
theorem placeHeldFrom_spec (rs : List Result) (s : State) :
    ∃ placed, rs = placed ++ (State.placeHeldFrom rs s).clb.hold
      ∧ placed.foldlM (fun es r => placeIn r es) s.clb.entries
          = some (State.placeHeldFrom rs s).clb.entries
      ∧ (∀ b, (State.placeHeldFrom rs s).bay b = (s.bay b).freed b placed)
      ∧ (∀ r rest, (State.placeHeldFrom rs s).clb.hold = r :: rest →
          placeIn r (State.placeHeldFrom rs s).clb.entries = none)
      ∧ (State.placeHeldFrom rs s).clb = { s.clb with
          entries := (State.placeHeldFrom rs s).clb.entries
          hold := (State.placeHeldFrom rs s).clb.hold } := by
  induction rs generalizing s with
  | nil => exact ⟨[], rfl, rfl, fun b => rfl, fun r rest h => by simp [State.placeHeldFrom] at h, rfl⟩
  | cons r rs ih =>
    unfold State.placeHeldFrom
    split
    · next es hes =>
      obtain ⟨placed, h1, h2, h3, h4, h5⟩ :=
        ih ({ s with clb := { s.clb with entries := es } }.modBay r.bay fun y => y.freeHeld r.tag)
      refine ⟨r :: placed, by simpa using h1, ?_, fun b => ?_, h4, h5⟩
      · rw [List.foldlM_cons, hes]; exact h2
      · rw [h3, modBay_bay]
        by_cases hb : b = r.bay
        · subst hb; simp [Bay.freed]; rfl
        · have hb' : ¬ r.bay = b := fun h => hb h.symm
          simp [Bay.freed, hb, hb']; rfl
    · next hn => exact ⟨[], rfl, rfl, fun b => rfl, fun r' rest h => by cases h; exact hn, rfl⟩

theorem placeHeld_spec (s : State) : ∃ placed, s.clb.hold = placed ++ s.placeHeld.clb.hold
      ∧ placed.foldlM (fun es r => placeIn r es) s.clb.entries = some s.placeHeld.clb.entries
      ∧ (∀ b, s.placeHeld.bay b = (s.bay b).freed b placed)
      ∧ (∀ r rest, s.placeHeld.clb.hold = r :: rest → placeIn r s.placeHeld.clb.entries = none)
      ∧ s.placeHeld.clb = { s.clb with
          entries := s.placeHeld.clb.entries, hold := s.placeHeld.clb.hold } :=
  placeHeldFrom_spec s.clb.hold s

theorem dropHeld_length (u : Tag) (ps : List Place) : (dropHeld u ps).length ≤ ps.length := by
  fun_induction dropHeld u ps <;> grind

/-- The freeing of a held result tests the link over a freed slot or place (R104, R115). -/
theorem freeHeld_eq (y : Bay) (u : Tag) :
    (y.flight = .held u ∧ y.freeHeld u = { y with flight := .empty }.relink)
    ∨ (y.flight ≠ .held u ∧ y.freeHeld u = { y with places := dropHeld u y.places }.relink) := by
  unfold Bay.freeHeld
  cases hf : y.flight with
  | held v =>
    by_cases hv : v = u
    · simp [hv]
    · simp [hv]
  | empty | step st => simp

theorem freeHeld_moves (u : Tag) : BayMoves y (y.freeHeld u) := by
  obtain ⟨_, h⟩ | ⟨_, h⟩ := freeHeld_eq y u <;> rw [h]
  · exact .single (.relinked .empty _ (.inr rfl) le_rfl)
  · exact .single (.relinked _ _ (.inl rfl) (dropHeld_length u _))

theorem freed_moves (placed : List Result) : BayMoves y (y.freed b placed) := by
  unfold Bay.freed
  generalize placed.filter _ = l
  induction l generalizing y with
  | nil => exact .refl
  | cons r l ih => exact (freeHeld_moves r.tag).trans ih

theorem reportEntry_frame (e : Entry) : (s.reportEntry e).bays = s.bays
    ∧ (s.reportEntry e).clb = s.clb ∧ (s.reportEntry e).slc = s.slc ∧ (s.reportEntry e).atu = s.atu
    ∧ (s.reportEntry e).groups = s.groups ∧ (s.reportEntry e).pending = s.pending
    ∧ (s.reportEntry e).bayCount = s.bayCount := by
  unfold State.reportEntry
  split
  · exact ⟨rfl, rfl, rfl, rfl, rfl, rfl, rfl⟩
  · split <;> exact ⟨rfl, rfl, rfl, rfl, rfl, rfl, rfl⟩

/-! ## A move as each bay sees it -/

theorem bayMoves_of_bays (h : t.bays = s.bays) (b : BayId) : BayMoves (s.bay b) (t.bay b) := by
  unfold State.bay; rw [h]

theorem blocksReset_bay (b : BayId) : s.blocksReset.bay b = (s.bay b).stationReset := by
  have h : s.blocksReset.bays = (s.mapBays fun _ y => y.stationReset).bays := by
    simp only [State.blocksReset]
  have h' : s.blocksReset.bay b = (s.mapBays fun _ y => y.stationReset).bay b := by
    simp only [State.bay, h]
  rw [h', mapBays_bay]

theorem startExchange_bay (r : SendRequest) (tag : Tag) (w : Option WindowSpec) (S : BaySet)
    (b : BayId) : (s.startExchange r tag w S).bay b
      = if inSet S b then (s.bay b).append tag w.isSome else s.bay b := by
  unfold State.startExchange
  split
  · next h => rw [h]; simp
  · rw [mapBays_bay]; rfl

/-- A move is a sequence of moves at each bay. -/
theorem Move.bay (h : Move s t) (b : BayId) : BayMoves (s.bay b) (t.bay b) := by
  cases h with
  | bays t he hb hw => exact hb b
  | finals b' rs z hb hr hw =>
    rw [setBay_bay]
    split
    · next h => subst h; exact hb
    · rw [handOvers_bay]
  | interim r st hf ht hk => rw [collate_bay]
  | send r tag w S ht hx hn hj =>
    rw [startExchange_bay]
    split
    · next hb => exact .single (.append tag _ (hj b hb))
    · exact .refl
  | placing =>
    obtain ⟨placed, -, -, h, -⟩ := placeHeld_spec s
    rw [h]
    exact freed_moves placed
  | batchEnd e rest he =>
    obtain ⟨placed, -, -, h, -⟩ :=
      placeHeld_spec (({ s with clb := s.clb.freeHead e rest } : State).reportEntry e)
    rw [h]
    have hb : (({ s with clb := s.clb.freeHead e rest } : State).reportEntry e).bay b = s.bay b :=
      congrArg (Vector.get · b) (reportEntry_frame e).1
    rw [hb]
    exact freed_moves placed
  | blocksReset => rw [blocksReset_bay]; exact .single .stationReset
  | raise b' c d => rw [raiseFlag_bay]
  | levels ls n => exact bayMoves_of_bays (reevaluate_frame (s := { s with
      atu := { s.atu with levels := ls, threshold := n } })).bays b
  | noticeEnded b' c =>
    refine bayMoves_of_bays ?_ b
    unfold State.noticeEnded
    split <;> rfl
  | cancelled | batchTaken | entries | batching | link | settings | clear | noticeTaken | log =>
    exact .refl

/-! ## Seating numbers (R2, R3, R22) -/

theorem relink_seating : y.relink.seating = y.seating := by rw [relink_eq]

theorem boundary_seating (c : RawCode) : (y.boundary c).seating = y.seating := by
  unfold Bay.boundary; split <;> rfl

theorem supplyOff_seating : y.supplyOff.seating = y.seating := by
  by_cases h : y.power.outputOn = true
  · exact (supplyOff_bay h).2.2.2.2.2.2.2.2.1
  · rw [Bay.supplyOff, if_neg h]

theorem BayMove.seating (h : BayMove y z) : z.seating = y.seating := by
  cases h with
  | rest h => exact (congrArg Bay.seating h : z.facets.seating = y.facets.seating)
  | on => exact relink_seating
  | relinked => exact relink_seating
  | down ms p h hp | removed ms =>
    rw [← supplyOff_seating (y := y)]
    generalize y.supplyOff = w
    rfl
  | configure v => rw [configure_eq]
  | boundary c => exact boundary_seating c
  | seat | press | release | booting | powering | off | zero | calibrated | append | monitor
  | window | inFlight | dispatch | stationReset => rfl

theorem exec_seatDebounceExpiry : exec (.seatDebounceExpiry b) s = .next
    (if (s.bay b).seat = .seating ∧ (s.bay b).debounce.isSome then s.completeSeating b else s) := rfl

theorem completeSeating_other {b' : BayId} (h : b' ≠ b) :
    (s.completeSeating b).bay b' = s.bay b' := by
  unfold State.completeSeating
  rw [raiseFlag_bay, modBay_bay_other h]

/-- Settles O3: every other command is a sequence of moves, each of which keeps every seating number; a
completed seating touches its own bay alone. -/
theorem seatingNumberChangesAtSeatingOnly : Obligations.SeatingNumberChangesAtSeatingOnly := by
  intro c s t b hc hne hreset
  by_cases hseat : ∃ b', c = .seatDebounceExpiry b'
  · obtain ⟨b', rfl⟩ := hseat
    have hb : b ≠ b' := fun h => hne (by rw [h])
    rw [exec_seatDebounceExpiry] at hc
    cases hc
    split
    · rw [completeSeating_other hb]
    · rfl
  · obtain ⟨u, hu, hm⟩ := exec_moves c s (fun b' h => hseat ⟨b', h⟩) hreset
    rw [hu] at hc
    cases hc
    exact hm.keeps (P := fun v => (v.bay b).seating = (s.bay b).seating)
      (fun v w hvw hv => (hvw.bay b).keeps (P := fun y => y.seating = (s.bay b).seating)
        (fun y z hyz hy => hyz.seating.trans hy) hv) rfl

end Sys2Proof.Machine
end

section
/-! PROOF. The invariants of a bay, kept by each of its moves and so by every step: seat and power, the
Measurement Unit, the link state. -/

namespace Sys2Proof.Machine

open Sys2Proof.Claims

variable {s t : State} {b : BayId} {y z : Bay}

/-! ## Steps -/

/-- A bay at the completion of its seating (R2). -/
def Bay.seated (y : Bay) : Bay :=
  { y with
    debounce := none, seating := y.seating + 1, seat := .seated, power := .off, token := 0
    link := .down }

theorem completeSeating_eq :
    s.completeSeating b = (s.modBay b Bay.seated).raiseFlag b .seated .none := rfl

/-- A predicate of the station that every move, every completed seating and a power-on reset keep is kept
by every step. -/
theorem step_keeps {P : State → Prop} (hpending : ∀ s l, P s → P { s with pending := l })
    (hmove : ∀ s t, Move s t → P s → P t)
    (hseat : ∀ s b, (s.bay b).seat = .seating → P s → P (s.completeSeating b))
    (hreset : ∀ p q s t, exec (.powerOnReset p q) s = .next t → P t) {s t : State} (hs : P s)
    (h : step s = .next t) : P t := by
  unfold step at h
  split at h
  · cases h
    exact tick_moves.keeps hmove hs
  · next c rest _ =>
    replace hs := hpending s rest hs
    generalize ({ s with pending := rest } : State) = v at h hs
    by_cases hd : ∃ b, c = .seatDebounceExpiry b
    · obtain ⟨b, rfl⟩ := hd
      rw [exec_seatDebounceExpiry] at h
      cases h
      split
      · next hc => exact hseat v b hc.1 hs
      · exact hs
    · by_cases hr : ∃ p q, c = .powerOnReset p q
      · obtain ⟨p, q, rfl⟩ := hr
        exact hreset p q v t h
      · obtain ⟨u, hu, hm⟩ := exec_moves c v (fun b h => hd ⟨b, h⟩) fun p q h => hr ⟨p, q, h⟩
        rw [hu] at h
        cases h
        exact hm.keeps hmove hs

/-- What a power-on reset leaves outside the bays. -/
theorem powerOnReset_frame {p q : Bool} (h : exec (.powerOnReset p q) s = .next t) :
    t.exchanges = [] ∧ t.clb = Clb.reset ∧ t.atu = Atu.reset ∧ t.slc = Slc.reset := by
  cases h
  exact ⟨rfl, rfl, rfl, rfl⟩

theorem powerOnReset_bay {p q : Bool} (h : exec (.powerOnReset p q) s = .next t) (b : BayId) :
    t.bay b = (s.bay b).powerOnReset (decide (b.val < latchedCount p q)) 200 := by
  cases h
  simp [State.bay, Vector.get_eq_getElem, State.reset]

theorem bay_powerOnReset_moves (q : Bool) (ms : Nat) : BayMoves Bay.reset (y.powerOnReset q ms) := by
  unfold Bay.powerOnReset
  split
  · exact sensorCloses_moves ms
  · exact .rest rfl

/-- A predicate of a bay that its moves and a completed seating keep, and that holds after reset, is kept
by every step at every bay. -/
theorem step_keepsBay {P : Bay → Prop} (hmove : ∀ y z, BayMove y z → P y → P z) (hreset : P Bay.reset)
    (hseat : ∀ y : Bay, y.seat = .seating → P y → P y.seated) (hs : ∀ b, P (s.bay b))
    (h : step s = .next t) : ∀ b, P (t.bay b) := by
  refine step_keeps (P := fun s => ∀ b, P (s.bay b)) (fun s l h b => h b)
    (fun s t hm hv b => (hm.bay b).keeps hmove (hv b)) (fun s b' hb hv b => ?_)
    (fun p q s t h b => ?_) hs h
  · rw [completeSeating_eq, raiseFlag_bay, modBay_bay]
    split
    · exact hseat _ hb (hv b')
    · exact hv b
  · rw [powerOnReset_bay h]
    exact (bay_powerOnReset_moves _ _).keeps hmove hreset

/-! ## Supply off, exactly -/

/-- All that a supply-off leaves of a bay whose output was on (R5, R23, R33, R71, R77). -/
theorem supplyOff_explicit (h : y.power.outputOn = true) : ∃ k l, y.supplyOff = { y with
    supply := y.supply.disable, powerKey := false, volumeKey := false, token := k, line := l
    flight := y.closedFlight
    params := { y.params with rangeMode := y.mu.pendingRange.getD y.params.rangeMode }
    mu := y.mu.stopSampling } := by
  unfold Bay.supplyOff
  rw [if_pos h]
  obtain ⟨k, l, hl⟩ := stopLine_eq
    { y with supply := y.supply.disable, powerKey := false, volumeKey := false }
  refine ⟨k, l.silence, ?_⟩
  simp only [hl, Bay.stopSampling, closeWindow_eq]
  rfl

/-! ## Seat, power and supply (Tables 1.1, 1.2, R5) -/

theorem powerLegal_of_facets (h : z.facets = y.facets) (hy : y.PowerLegal) : z.PowerLegal := by
  have hf : z.facets.PowerLegal := by rw [h]; exact ⟨hy.1, hy.2, hy.3, hy.4⟩
  exact ⟨hf.1, hf.2, hf.3, hf.4⟩

theorem relink_powerLegal : y.relink.PowerLegal ↔ y.PowerLegal := by
  rw [relink_eq]
  exact ⟨fun h => ⟨h.1, h.2, h.3, h.4⟩, fun h => ⟨h.1, h.2, h.3, h.4⟩⟩

theorem judgePowerOn_none (h : y.judgePowerOn = none) :
    y.seat = .seated ∧ (y.power = .off ∨ y.power = .none) ∧ y.mu.sampling ≠ .calibrating := by
  unfold Bay.judgePowerOn at h
  cases hs : y.seat <;> cases hp : y.power <;> simp_all

theorem judgeSend_none (h : y.judgeSend = none) : y.power = .on ∧ y.places.length < 4 := by
  unfold Bay.judgeSend at h
  split at h
  · next hp =>
    split_ifs at h with hl
    exact ⟨hp, Nat.lt_of_not_le hl⟩
  all_goals exact absurd h (by simp)

theorem judgeZero_none (h : y.judgeZero = none) :
    y.mu.sampling ≠ .calibrating ∧ y.power.outputOn = false := by
  unfold Bay.judgeZero at h
  split_ifs at h with h1 h2
  exact ⟨h1, by simpa using h2⟩

theorem PowerLegal.seated_of_outputOn (hy : y.PowerLegal) (h : y.power.outputOn = true) :
    y.seat = .seated := hy.seated.mpr fun hn => by simp [hn, Power.outputOn] at h

/-- What a station reset does to seat and power: a powered or TRIPPED bay is OFF. -/
theorem power_stationReset_none (p : Power) : p.stationReset = .none ↔ p = .none := by
  cases p <;> simp [Power.stationReset]

theorem power_stationReset_outputOn (p : Power) : p.stationReset.outputOn = false := by
  cases p <;> rfl

theorem BayMove.powerLegal (h : BayMove y z) (hy : y.PowerLegal) : z.PowerLegal := by
  obtain ⟨hseat, hsupply, hkey, hvol⟩ := hy
  cases h with
  | rest h => exact powerLegal_of_facets h ⟨hseat, hsupply, hkey, hvol⟩
  | seat x hs hx =>
    have hn : y.power = .none := by_contra fun h => hs (hseat.mpr h)
    exact ⟨by simp [hx, hn], hsupply, hkey, hvol⟩
  | press v h => exact ⟨hseat, hsupply, fun _ => h, fun _ => rfl⟩
  | release => exact ⟨hseat, hsupply, fun h => absurd h (by simp), fun h => absurd h (by simp)⟩
  | booting h hk =>
    refine ⟨by simp [hseat, h], by simp [hsupply, h, Power.outputOn], ?_, hvol⟩
    intro hk'
    rw [hk] at hk'
    exact absurd hk' (by simp)
  | on h hk =>
    rw [relink_powerLegal]
    have hk' : y.powerKey = false := by
      rcases h with h | h
      · exact hk h
      · by_contra hc
        have := hkey (by simpa using hc)
        rw [h] at this
        exact absurd this (by simp)
    refine ⟨?_, ?_, fun h' => ?_, hvol⟩
    · rcases h with h | h <;> simp [hseat, h]
    · rcases h with h | h <;> simp [hsupply, h, Power.outputOn]
    · rw [hk'] at h'
      exact absurd h' (by simp)
  | powering v h =>
    obtain ⟨hs, hp, -⟩ := judgePowerOn_none h
    exact ⟨by simp [Bay.enterPowering, hs], rfl, fun _ => rfl, hvol⟩
  | down ms p h hp =>
    obtain ⟨k, l, hoff⟩ := supplyOff_explicit h
    rw [hoff]
    have hs : y.seat = .seated := PowerLegal.seated_of_outputOn ⟨hseat, hsupply, hkey, hvol⟩ h
    refine ⟨?_, ?_, fun h => absurd h (by simp [Bay.powerDown, Bay.stopPowerTimers, Bay.stepsEnded,
      Bay.flightEnded]), fun h => absurd h (by simp [Bay.powerDown, Bay.stopPowerTimers,
      Bay.stepsEnded, Bay.flightEnded])⟩
    · rcases hp with rfl | rfl <;>
        simp [Bay.powerDown, Bay.stopPowerTimers, Bay.stepsEnded, Bay.flightEnded, hs]
    · rcases hp with rfl | rfl <;> rfl
  | removed ms =>
    refine ⟨by simp [Bay.powerDown], ?_, fun h => absurd h (by simp), fun h => absurd h (by simp)⟩
    by_cases h : y.power.outputOn = true
    · obtain ⟨k, l, hoff⟩ := supplyOff_explicit h
      rw [hoff]
      rfl
    · rw [Bay.supplyOff, if_neg h]
      exact hsupply.trans (Bool.eq_false_iff.mpr h)
  | off h => exact ⟨by simp [hseat, h], by simp [hsupply, h, Power.outputOn], fun hk => by
      have := hkey hk; rw [h] at this; exact absurd this (by simp), hvol⟩
  | configure v => rw [configure_eq]; exact ⟨hseat, hsupply, hkey, hvol⟩
  | boundary c => unfold Bay.boundary; split <;> exact ⟨hseat, hsupply, hkey, hvol⟩
  | relinked fl ps hf hp => rw [relink_powerLegal]; exact ⟨hseat, hsupply, hkey, hvol⟩
  | stationReset =>
    refine ⟨?_, (power_stationReset_outputOn _).symm, fun h => absurd h (by simp [Bay.stationReset]),
      fun h => absurd h (by simp [Bay.stationReset])⟩
    simp only [Bay.stationReset, ne_eq, power_stationReset_none]
    exact hseat
  | zero | calibrated | append | monitor | window | inFlight | dispatch =>
    exact ⟨hseat, hsupply, hkey, hvol⟩

theorem powerLegal_reset : Bay.reset.PowerLegal := by
  refine ⟨?_, ?_, ?_, ?_⟩ <;> decide

theorem PowerLegal.seated (hy : y.PowerLegal) (h : y.seat = .seating) : y.seated.PowerLegal := by
  obtain ⟨hseat, hsupply, hkey, hvol⟩ := hy
  have hn : y.power = .none := by_contra fun hp => by rw [hseat.mpr hp] at h; simp at h
  refine ⟨by simp [Bay.seated], ?_, fun hk => ?_, hvol⟩
  · exact hsupply.trans (by rw [hn]; rfl)
  · have := hkey hk
    rw [hn] at this
    exact absurd this (by simp)

end Sys2Proof.Machine
end

section
/-! PROOF. The Measurement Unit of each bay, kept legal by every step (R23, R27, R30, R37, R55, R57). -/

namespace Sys2Proof.Machine

open Sys2Proof.Claims

variable {s t : State} {b : BayId} {y z : Bay} {m : Mu} {c : RawCode}

/-! ## Accumulators across a boundary -/

@[simp] theorem take_state (a : Accumulator) (it : PeriodItem) : (a.take it).state = a.state := by
  unfold Accumulator.take
  split
  · simp only
    split <;> rfl
  · rfl

@[simp] theorem noteSwitch_state (a : Accumulator) : a.noteSwitch.state = a.state := by
  unfold Accumulator.noteSwitch; split <;> rfl

theorem begin_free (a : Accumulator) : a.begin.state = .free ↔ a.state = .free := by
  unfold Accumulator.begin
  split <;> simp_all

/-! ## The unit at a boundary (R27, R29 to R32) -/

theorem endPeriod_eq (m : Mu) (c : RawCode) : ∃ w x, m.endPeriod c
    = { m with monitorAcc := w, exchangeAcc := x }
      ∧ w.state = m.monitorAcc.state ∧ x.state = m.exchangeAcc.state := by
  unfold Mu.endPeriod
  split
  · exact ⟨_, _, rfl, take_state _ _, take_state _ _⟩
  · exact ⟨_, _, rfl, rfl, rfl⟩

theorem nextDown_high (h : m.nextDown c ≠ 0) : m.range = .high := by
  unfold Mu.nextDown at h
  split at h
  · exact absurd rfl h
  · assumption

/-- The range decided, with its down count: below 64 unless the range switches, and above 0 only in
HIGH (R30). -/
theorem decideRange_legal (m : Mu) (mode : RangeMode) (c : RawCode) :
    (m.decideRange mode c).1 = m.range →
      (m.decideRange mode c).2 < 64 ∧ ((m.decideRange mode c).2 ≠ 0 → m.range = .high) := by
  have hauto (h : m.autoRange c = m.range) :
      m.nextDown c < 64 ∧ (m.nextDown c ≠ 0 → m.range = .high) := by
    refine ⟨?_, nextDown_high⟩
    by_contra hn
    have hge : 64 ≤ m.nextDown c := Nat.le_of_not_lt hn
    have hr : m.range = .high := nextDown_high (Nat.ne_of_gt (Nat.lt_of_lt_of_le (by decide) hge))
    have hc : ¬ m.nextDown c < Config.downSwitchCount := hn
    simp [Mu.autoRange, hr, hc] at h
  have hzero (r : Range) : r = m.range → 0 < 64 ∧ ((0 : Nat) ≠ 0 → m.range = .high) :=
    fun _ => ⟨by decide, fun h => absurd rfl h⟩
  unfold Mu.decideRange Mu.nextRange
  split
  · cases m.pendingRange with
    | none =>
      cases mode with
      | auto => exact hauto
      | low | high => exact hzero _
    | some p =>
      cases p with
      | low | high => exact hzero _
      | auto =>
        cases mode with
        | auto => exact hauto
        | low | high => exact hzero _
  · cases m.pendingRange with
    | some p => cases p <;> exact hzero _
    | none => exact hzero _

/-- What a boundary leaves of a sampling unit, as far as the invariants speak of it. -/
theorem samplingBoundary_legal (m : Mu) (mode : RangeMode) (c : RawCode) (hb : m.blanking ≤ 2) :
    let n := m.samplingBoundary mode c
    n.sampling = m.sampling ∧ n.lowOffset = m.lowOffset ∧ n.highOffset = m.highOffset
    ∧ n.blanking ≤ 2 ∧ n.downCount < 64 ∧ (n.downCount ≠ 0 → n.range = .high)
    ∧ n.outOfBand = m.outOfBand ∧ n.monitorState = m.monitorState
    ∧ (n.monitorAcc.state = .free ↔ m.monitorAcc.state = .free)
    ∧ (n.exchangeAcc.state = .free ↔ m.exchangeAcc.state = .free) := by
  obtain ⟨w, x, he, hw, hx⟩ := endPeriod_eq m c
  have hd := decideRange_legal m mode c
  unfold Mu.samplingBoundary Mu.applyRange
  rw [he]
  by_cases hr : (m.decideRange mode c).1 = m.range
  · obtain ⟨h1, h2⟩ := hd hr
    simp only [Mu.beginPeriod, hr, if_true, begin_free, hw, hx, true_and]
    exact ⟨by omega, h1, h2, trivial⟩
  · simp [Mu.beginPeriod, hr, begin_free, hw, hx]

/-! ## The unit of a bay -/

theorem unitLegal_of_facets (h : z.facets = y.facets) (hy : y.UnitLegal) : z.UnitLegal := by
  have hf : z.facets.UnitLegal := by
    rw [h]; exact ⟨hy.1, hy.2, hy.3, hy.4, hy.5, hy.6, hy.7, hy.8, hy.9, hy.10⟩
  exact ⟨hf.1, hf.2, hf.3, hf.4, hf.5, hf.6, hf.7, hf.8, hf.9, hf.10⟩

theorem relink_unitLegal : y.relink.UnitLegal ↔ y.UnitLegal := by
  rw [relink_eq]
  exact ⟨fun h => ⟨h.1, h.2, h.3, h.4, h.5, h.6, h.7, h.8, h.9, h.10⟩,
    fun h => ⟨h.1, h.2, h.3, h.4, h.5, h.6, h.7, h.8, h.9, h.10⟩⟩

/-- A unit that does not sample watches nothing and has no window. -/
theorem UnitLegal.at_rest (hy : y.UnitLegal) (h : y.power.outputOn = false) :
    y.mu.sampling ≠ .sampling ∧ y.mu.monitorState = .stopped ∧ y.mu.monitorAcc.state = .free
      ∧ y.mu.exchangeAcc.state = .free := by
  have hs : y.mu.sampling ≠ .sampling := fun hs => by
    rw [hy.sampling.mp hs] at h; exact absurd h (by simp)
  have hm : y.mu.monitorState = .stopped := by
    cases hm : y.mu.monitorState with
    | stopped => rfl
    | watching => exact absurd (hy.watching hm) hs
  have hw : y.mu.monitorAcc.state = .free := by
    by_contra hf
    have := hy.monitor hf
    rw [hm] at this
    exact absurd this (by simp)
  exact ⟨hs, hm, hw, by_contra fun hf => hs (hy.exchange hf)⟩

/-- A unit at rest at a bay whose output is off. -/
theorem unitLegal_of_rest (hy : y.UnitLegal) (hp : z.power.outputOn = false)
    (hm : z.mu.sampling ≠ .sampling ∧ z.mu.lowOffset = y.mu.lowOffset
      ∧ z.mu.highOffset = y.mu.highOffset ∧ z.mu.blanking = 0 ∧ z.mu.downCount = 0
      ∧ z.mu.outOfBand = 0 ∧ z.mu.monitorState = .stopped ∧ z.mu.monitorAcc.state = .free
      ∧ z.mu.exchangeAcc.state = .free) : z.UnitLegal := by
  obtain ⟨h1, h2, h3, h4, h5, h6, h7, h8, h9⟩ := hm
  exact ⟨by simp [hp, h1], by rw [h2]; exact hy.lowOffset, by rw [h3]; exact hy.highOffset,
    by omega, by rw [h5]; decide, fun h => absurd h5 h, by omega, by simp [h7], by simp [h8],
    by simp [h9]⟩

theorem outOfBandAfter_le {n most : Nat} (h : n ≤ most) (v : Verdict) :
    outOfBandAfter n most v ≤ most := by
  unfold outOfBandAfter
  split <;> omega

/-- A unit whose sampling has started (R23, R27, R28, R55, R64). -/
theorem startSampling_legal (m : Mu) (p : Params) :
    let n := m.startSampling p
    n.sampling = .sampling ∧ n.lowOffset = m.lowOffset ∧ n.highOffset = m.highOffset
    ∧ n.blanking = 2 ∧ n.downCount = 0 ∧ n.exchangeAcc = m.exchangeAcc
    ∧ ((n.outOfBand = 0 ∧ n.monitorState = .watching)
      ∨ (n.outOfBand = m.outOfBand ∧ n.monitorState = m.monitorState
        ∧ n.monitorAcc = m.monitorAcc)) := by
  unfold Mu.startSampling
  simp only
  rw [settleTrigger_eq]
  cases p.monitorOn
  · exact ⟨rfl, rfl, rfl, rfl, rfl, rfl, .inr ⟨rfl, rfl, rfl⟩⟩
  · exact ⟨rfl, rfl, rfl, rfl, rfl, rfl, .inl ⟨rfl, rfl⟩⟩

theorem calibrated_offsets (m : Mu) (k : Calibration)
    (hl : withinLimits m.lowOffset = true) (hh : withinLimits m.highOffset = true) :
    withinLimits (m.calibrated k).lowOffset = true
      ∧ withinLimits (m.calibrated k).highOffset = true := by
  unfold Mu.calibrated
  by_cases h : (withinLimits (candidateOf k.lowSum) && withinLimits (candidateOf k.highSum)) = true
  · simp only [h, if_true]
    exact Bool.and_eq_true_iff.mp h
  · simp only [if_neg h]
    exact ⟨hl, hh⟩

/-- A configured unit before its monitor restarts, as far as the invariants speak of it. -/
theorem configuredUnit_eq (y : Bay) (a : Settings) : ∃ st ps pr,
    y.configuredUnit a = { y.mu with settleTimer := st, periodSettle := ps, pendingRange := pr } := by
  unfold Bay.configuredUnit
  split
  · rw [settleTrigger_eq]; exact ⟨_, _, _, rfl⟩
  · exact ⟨_, _, _, rfl⟩

theorem touchesMonitor_count {a : Settings} (h : a.touchesMonitor = false) (p : Params) :
    (p.store a).monitorCount = p.monitorCount := by
  have : a.monitorCount = none := by
    simp only [Settings.touchesMonitor, Bool.or_eq_false_iff] at h
    simpa using h.2
  simp [Params.store, this]

/-- A restarted monitor watches a sampling unit alone, and its window runs only then (R63). -/
theorem restartMonitor_legal (m : Mu) (p : Params) :
    let n := m.restartMonitor p
    n.sampling = m.sampling ∧ n.lowOffset = m.lowOffset ∧ n.highOffset = m.highOffset
    ∧ n.blanking = m.blanking ∧ n.downCount = m.downCount ∧ n.range = m.range
    ∧ n.exchangeAcc = m.exchangeAcc ∧ n.outOfBand = 0
    ∧ (n.monitorState = .watching → m.sampling = .sampling)
    ∧ (n.monitorAcc.state ≠ .free → n.monitorState = .watching) := by
  unfold Mu.restartMonitor
  split
  · next h =>
    have hs : m.sampling = .sampling := by simp_all
    exact ⟨rfl, rfl, rfl, rfl, rfl, rfl, rfl, rfl, fun _ => hs, fun _ => rfl⟩
  · exact ⟨rfl, rfl, rfl, rfl, rfl, rfl, rfl, rfl, fun h => absurd h (by simp [Mu.unwatch]),
      fun h => absurd rfl h⟩

theorem unitLegal_of_restarted (hy : y.UnitLegal) (hp : z.power = y.power)
    (hm : z.mu.sampling = y.mu.sampling ∧ z.mu.lowOffset = y.mu.lowOffset
      ∧ z.mu.highOffset = y.mu.highOffset ∧ z.mu.blanking = y.mu.blanking
      ∧ z.mu.downCount = y.mu.downCount ∧ z.mu.range = y.mu.range
      ∧ z.mu.exchangeAcc = y.mu.exchangeAcc ∧ z.mu.outOfBand = 0
      ∧ (z.mu.monitorState = .watching → y.mu.sampling = .sampling)
      ∧ (z.mu.monitorAcc.state ≠ .free → z.mu.monitorState = .watching)) : z.UnitLegal := by
  obtain ⟨r1, r2, r3, r4, r5, r6, r7, r8, r9, r10⟩ := hm
  exact ⟨by rw [r1, hp]; exact hy.1, by rw [r2]; exact hy.2, by rw [r3]; exact hy.3,
    by rw [r4]; exact hy.4, by rw [r5]; exact hy.5, by rw [r5, r6]; exact hy.6,
    by rw [r8]; exact Nat.zero_le _, by rw [r1]; exact r9, r10, by rw [r7, r1]; exact hy.10⟩

theorem configure_unitLegal (a : Settings) (hy : y.UnitLegal) : (y.configure a).UnitLegal := by
  obtain ⟨st, ps, pr, hu⟩ := configuredUnit_eq y a
  rw [configure_eq]
  cases ht : a.touchesMonitor with
  | false =>
    simp only [hu, Bool.false_eq_true, if_false]
    exact ⟨hy.1, hy.2, hy.3, hy.4, hy.5, hy.6, by
      rw [touchesMonitor_count ht]; exact hy.7, hy.8, hy.9, hy.10⟩
  | true =>
    simp only [hu, if_true]
    exact unitLegal_of_restarted hy rfl (restartMonitor_legal
      { y.mu with settleTimer := st, periodSettle := ps, pendingRange := pr }
      { y.params.store a with rangeMode := y.configuredMode a })

theorem boundary_unitLegal (c : RawCode) (hy : y.UnitLegal) : (y.boundary c).UnitLegal := by
  unfold Bay.boundary
  split
  · obtain ⟨h1, h2, h3, h4, h5, h6, h7, h8, h9, h10⟩ :=
      samplingBoundary_legal y.mu y.params.rangeMode c hy.blanking
    exact ⟨by rw [h1]; exact hy.1, by rw [h2]; exact hy.2, by rw [h3]; exact hy.3, h4, h5, h6,
      by rw [h7]; exact hy.7, by rw [h8, h1]; exact hy.8, by rw [ne_eq, h9, h8]; exact hy.9,
      by rw [ne_eq, h10, h1]; exact hy.10⟩
  · unfold Mu.calibratingBoundary
    split <;> exact ⟨hy.1, hy.2, hy.3, hy.4, hy.5, hy.6, hy.7, hy.8, hy.9, hy.10⟩
  · exact hy

theorem BayMove.unitLegal (h : BayMove y z) (hy : y.UnitLegal) : z.UnitLegal := by
  have hy' := hy
  obtain ⟨h1, h2, h3, h4, h5, h6, h7, h8, h9, h10⟩ := hy
  cases h with
  | rest h => exact unitLegal_of_facets h hy'
  | booting h hk =>
    exact ⟨by rw [h1, h]; rfl, h2, h3, h4, h5, h6, h7, h8, h9, h10⟩
  | on h hk =>
    rw [relink_unitLegal]
    refine ⟨?_, h2, h3, h4, h5, h6, h7, h8, h9, h10⟩
    rcases h with h | h <;> rw [h1, h] <;> rfl
  | powering v h =>
    obtain ⟨-, hp, -⟩ := judgePowerOn_none h
    have hoff : y.power.outputOn = false := by rcases hp with hp | hp <;> rw [hp] <;> rfl
    obtain ⟨-, r2, r3, r4⟩ := UnitLegal.at_rest hy' hoff
    obtain ⟨s1, s2, s3, s4, s5, s6, s7⟩ := startSampling_legal y.mu y.params
    refine ⟨⟨fun _ => rfl, fun _ => s1⟩, by simp only [Bay.enterPowering, s2]; exact h2,
      by simp only [Bay.enterPowering, s3]; exact h3, s4.le, by
        simp only [Bay.enterPowering, s5]; decide, fun h => absurd s5 h, ?_, fun _ => s1, ?_,
      fun _ => s1⟩
    · rcases s7 with ⟨e, -⟩ | ⟨e, -, -⟩
      · simp [Bay.enterPowering, e]
      · simp only [Bay.enterPowering, e]; exact h7
    · rcases s7 with ⟨-, e⟩ | ⟨-, -, e⟩
      · exact fun _ => e
      · simp [Bay.enterPowering, e, r3]
  | down ms p h hp =>
    obtain ⟨k, l, hoff⟩ := supplyOff_explicit h
    refine unitLegal_of_rest hy' ?_ ?_
    · rcases hp with rfl | rfl <;> rfl
    · rw [hoff]
      exact ⟨by simp [Bay.powerDown, Bay.stopPowerTimers, Bay.stepsEnded, Bay.flightEnded,
        Mu.stopSampling], rfl, rfl, rfl, rfl, rfl, rfl, rfl, rfl⟩
  | removed ms =>
    by_cases h : y.power.outputOn = true
    · obtain ⟨k, l, hoff⟩ := supplyOff_explicit h
      refine unitLegal_of_rest hy' rfl ?_
      rw [hoff]
      exact ⟨by simp [Bay.powerDown, Bay.stopPowerTimers, Bay.stepsEnded, Bay.flightEnded,
        Mu.stopSampling], rfl, rfl, rfl, rfl, rfl, rfl, rfl, rfl⟩
    · rw [Bay.supplyOff, if_neg h]
      have hoff : y.power.outputOn = false := Bool.eq_false_iff.mpr h
      obtain ⟨r1, -, -, -⟩ := UnitLegal.at_rest hy' hoff
      exact ⟨⟨fun hs => absurd hs r1, fun hs => absurd hs (by simp [Bay.powerDown, Power.outputOn])⟩,
        h2, h3, h4, h5, h6, h7, h8, h9, fun h => absurd rfl h⟩
  | off h => exact ⟨by rw [h1, h]; rfl, h2, h3, h4, h5, h6, h7, h8, h9, h10⟩
  | zero h =>
    obtain ⟨-, hoff⟩ := judgeZero_none h
    obtain ⟨-, r2, r3, r4⟩ := UnitLegal.at_rest hy' hoff
    exact ⟨by simp [Bay.beginCalibration, hoff], h2, h3, h4, h5, h6, h7,
      by simp [Bay.beginCalibration, r2], by simp [Bay.beginCalibration, r3],
      by simp [Bay.beginCalibration, r4]⟩
  | calibrated k hs =>
    have hoff : y.power.outputOn = false := by
      rw [← Bool.not_eq_true, ← h1, hs]; simp
    obtain ⟨-, r2, r3, r4⟩ := UnitLegal.at_rest hy' hoff
    obtain ⟨o1, o2⟩ := calibrated_offsets y.mu k h2 h3
    exact ⟨by simp [Mu.calibrated, hoff], o1, o2, h4, h5, h6, h7, by simp [Mu.calibrated, r2],
      by simp [Mu.calibrated, r3], by simp [Mu.calibrated, r4]⟩
  | configure v => exact configure_unitLegal _ hy'
  | boundary c => exact boundary_unitLegal c hy'
  | monitor h =>
    exact ⟨h1, h2, h3, h4, h5, h6, outOfBandAfter_le h7 _, h8, fun _ => h9 h, h10⟩
  | window a h => exact ⟨h1, h2, h3, h4, h5, h6, h7, h8, h9, h⟩
  | relinked fl ps hf hp =>
    rw [relink_unitLegal]
    exact ⟨h1, h2, h3, h4, h5, h6, h7, h8, h9, h10⟩
  | stationReset =>
    refine unitLegal_of_rest hy' (power_stationReset_outputOn _) ?_
    exact ⟨by simp [Bay.stationReset, Mu.stationReset, Mu.stopSampling], rfl, rfl, rfl, rfl, rfl, rfl,
      rfl, rfl⟩
  | seat | press | release | append | inFlight | dispatch =>
    exact ⟨h1, h2, h3, h4, h5, h6, h7, h8, h9, h10⟩

theorem unitLegal_reset : Bay.reset.UnitLegal := by
  constructor <;> decide

theorem UnitLegal.seated (hy : y.UnitLegal) (hp : y.PowerLegal) (h : y.seat = .seating) :
    y.seated.UnitLegal := by
  have hn : y.power = .none := by_contra fun hne => by rw [hp.seated.mpr hne] at h; simp at h
  exact ⟨hy.sampling.trans (by rw [hn]; rfl), hy.2, hy.3, hy.4, hy.5, hy.6, hy.7, hy.8, hy.9, hy.10⟩

/-- Settles O4: each move of a bay keeps seat, power, supply and keys in agreement and its unit legal,
and so does a completed seating; a power-on reset leaves what a move of a reset bay leaves. -/
theorem stepKeepsPowerLegal : Obligations.StepKeepsPowerLegal := by
  constructor
  · intro s t hs h
    exact step_keepsBay (fun y z hm hy => hm.powerLegal hy) powerLegal_reset
      (fun y hy hp => PowerLegal.seated hp hy) hs h
  · intro s t hs h
    exact step_keepsBay (P := fun y => y.PowerLegal ∧ y.UnitLegal)
      (fun y z hm hy => ⟨hm.powerLegal hy.1, hm.unitLegal hy.2⟩) ⟨powerLegal_reset, unitLegal_reset⟩
      (fun y hy hp => ⟨PowerLegal.seated hp.1 hy, UnitLegal.seated hp.2 hp.1 hy⟩) hs h

end Sys2Proof.Machine
end

section
/-! PROOF. The link state of each bay, kept in agreement by every step (Table 7.6, R103, R104). -/

namespace Sys2Proof.Machine

open Sys2Proof.Claims

variable {s t : State} {b : BayId} {y z : Bay}

/-- The link state speaks of power, link, flight slot and places alone. -/
theorem linkLegal_congr (hy : y.LinkLegal) (hp : z.power = y.power) (hl : z.link = y.link)
    (hf : z.flight = y.flight) (hq : z.places = y.places) : z.LinkLegal := by
  have hh : z.holdsResult = y.holdsResult := by unfold Bay.holdsResult; rw [hf, hq]
  exact ⟨by rw [hp, hl]; exact hy.down, by rw [hf, hl]; exact hy.flight,
    by rw [hl, hh]; exact hy.idle, by rw [hl, hh]; exact hy.holding, by rw [hq]; exact hy.places⟩

/-- A bay that is not ON, with no step in flight and link DOWN. -/
theorem linkLegal_down (hp : y.power ≠ .on) (hl : y.link = .down) (hf : y.flight.isStep = false)
    (hq : y.places.length ≤ 4) : y.LinkLegal := by
  refine ⟨by simp [hp, hl], by simp [hf, hl, Link.ofStep], ?_, ?_, hq⟩ <;> simp [hl]

/-- A bay with a step in flight and a link state of a step in flight. -/
theorem linkLegal_inFlight (hp : y.power = .on) (hl : y.link.ofStep = true)
    (hf : y.flight.isStep = true) (hq : y.places.length ≤ 4) : y.LinkLegal := by
  refine ⟨?_, by simp [hf, hl], ?_, ?_, hq⟩ <;> cases h : y.link <;> simp_all [Link.ofStep]

/-- The test of R104 at a bay that is ON with no step in flight. -/
theorem linkLegal_relink (hp : y.power = .on) (hf : y.flight.isStep = false)
    (hq : y.places.length ≤ 4) : y.relink.LinkLegal := by
  have hl := relink_link hp hf
  have hh : y.relink.holdsResult = y.holdsResult := by rw [relink_eq]; rfl
  have hpow : y.relink.power = .on := by rw [relink_eq]; exact hp
  have hfl : y.relink.flight.isStep = false := by rw [relink_eq]; exact hf
  have hpl : y.relink.places = y.places := by rw [relink_eq]
  cases hc : y.holdsResult with
  | true =>
    rw [hc, if_pos rfl] at hl
    exact ⟨by simp [hl, hpow], by simp [hl, hfl, Link.ofStep], by simp [hl], by simp [hh, hc],
      by rw [hpl]; exact hq⟩
  | false =>
    rw [hc, if_neg (by simp)] at hl
    exact ⟨by simp [hl, hpow], by simp [hl, hfl, Link.ofStep], by simp [hh, hc], by simp [hl],
      by rw [hpl]; exact hq⟩

theorem Bay.LinkLegal.down_of (hy : y.LinkLegal) (hp : y.power ≠ .on) :
    y.link = .down ∧ y.flight.isStep = false := by
  have hl : y.link = .down := hy.down.mpr hp
  refine ⟨hl, Bool.eq_false_iff.mpr fun hf => ?_⟩
  have := hy.flight.mp hf
  rw [hl] at this
  exact absurd this (by simp [Link.ofStep])

theorem Bay.LinkLegal.on_of (hy : y.LinkLegal) (hf : y.flight.isStep = true) :
    y.power = .on ∧ y.link.ofStep = true := by
  refine ⟨by_contra fun hp => ?_, hy.flight.mp hf⟩
  rw [(hy.down_of hp).2] at hf
  exact absurd hf (by simp)

/-- A change of power between states other than ON. -/
theorem Bay.LinkLegal.not_on (hy : y.LinkLegal) (hp : y.power ≠ .on) (hz : z.power ≠ .on)
    (hl : z.link = y.link) (hf : z.flight = y.flight) (hq : z.places = y.places) : z.LinkLegal :=
  linkLegal_down hz (hl.trans (hy.down_of hp).1) (by rw [hf]; exact (hy.down_of hp).2)
    (by rw [hq]; exact hy.places)

theorem supplyOff_places : y.supplyOff.places = y.places := by
  by_cases h : y.power.outputOn = true
  · obtain ⟨k, l, hoff⟩ := supplyOff_explicit h
    rw [hoff]
  · rw [Bay.supplyOff, if_neg h]

theorem stepsEnded_places_length (ms : List Bool) :
    (y.supplyOff.stepsEnded ms).places.length ≤ y.places.length := by
  rw [← supplyOff_places (y := y)]
  exact placesAfter_length _ _

theorem BayMove.linkLegal (h : BayMove y z) (hy : y.LinkLegal) : z.LinkLegal := by
  cases h with
  | rest h =>
    exact linkLegal_congr hy (congrArg Bay.power h : z.facets.power = y.facets.power)
      (congrArg Bay.link h : z.facets.link = y.facets.link)
      (congrArg Bay.flight h : z.facets.flight = y.facets.flight)
      (congrArg Bay.places h : z.facets.places = y.facets.places)
  | booting h hk => exact hy.not_on (by rw [h]; simp) (by simp) rfl rfl rfl
  | on h hk =>
    have hp : y.power ≠ .on := by rcases h with h | h <;> rw [h] <;> simp
    exact linkLegal_relink rfl (hy.down_of hp).2 hy.places
  | powering v h =>
    obtain ⟨-, h, -⟩ := judgePowerOn_none h
    exact hy.not_on (by rcases h with h | h <;> rw [h] <;> simp)
      (by simp [Bay.enterPowering]) rfl rfl rfl
  | down ms p h hp =>
    exact linkLegal_down (by rcases hp with rfl | rfl <;> simp [Bay.powerDown]) rfl
      (flight_after_no_step _ _) ((stepsEnded_places_length ms).trans hy.places)
  | removed ms =>
    exact linkLegal_down (by simp [Bay.powerDown]) rfl
      (flight_after_no_step _ _) ((stepsEnded_places_length ms).trans hy.places)
  | off h => exact hy.not_on (by rw [h]; simp) (by simp) rfl rfl rfl
  | configure v => rw [configure_eq]; exact linkLegal_congr hy rfl rfl rfl rfl
  | append tag w h =>
    obtain ⟨-, hl⟩ := judgeSend_none h
    have hh : (y.append tag w).holdsResult = y.holdsResult := by
      simp [Bay.append, Bay.holdsResult, Place.isHeld]
    exact ⟨hy.down, hy.flight, by rw [hh]; exact hy.idle, by rw [hh]; exact hy.holding,
      by simp [Bay.append]; exact hl⟩
  | boundary c => unfold Bay.boundary; split <;> exact linkLegal_congr hy rfl rfl rfl rfl
  | inFlight st l h hl =>
    obtain ⟨hp, hs⟩ := hy.on_of h
    exact linkLegal_inFlight hp (by rcases hl with hl | rfl <;> assumption) rfl hy.places
  | dispatch st st' ps h hp =>
    have hon : y.power = .on := by_contra fun hn => by
      rw [(hy.down_of hn).1] at h; exact absurd h (by simp)
    have hq := hy.places
    rw [hp, List.length_cons] at hq
    exact linkLegal_inFlight hon rfl rfl (Nat.le_of_succ_le hq)
  | relinked fl ps hf hp =>
    have hps : ps.length ≤ 4 := hp.trans hy.places
    by_cases hfl : fl.isStep = true
    · rcases hf with rfl | hf
      · rw [relink_same (y := { y with places := ps }) (.inr hfl)]
        obtain ⟨hon, hs⟩ := hy.on_of hfl
        exact linkLegal_inFlight hon hs hfl hps
      · rw [hf] at hfl; exact absurd hfl (by simp)
    · have hfl : fl.isStep = false := Bool.eq_false_iff.mpr hfl
      by_cases hon : y.power = .on
      · exact linkLegal_relink hon hfl hps
      · rw [relink_same (y := { y with flight := fl, places := ps }) (.inl hon)]
        exact linkLegal_down hon (hy.down_of hon).1 hfl hps
  | stationReset =>
    refine linkLegal_down ?_ rfl rfl (by simp [Bay.stationReset])
    cases h : y.power <;> simp [Bay.stationReset, Power.stationReset, h]
  | seat | press | release | zero | calibrated | monitor | window =>
    exact linkLegal_congr hy rfl rfl rfl rfl

theorem linkLegal_reset : Bay.reset.LinkLegal := by constructor <;> decide

theorem Bay.LinkLegal.seated (hy : y.LinkLegal) (hp : y.PowerLegal) (h : y.seat = .seating) :
    y.seated.LinkLegal := by
  have hn : y.power = .none := by_contra fun hp' => by rw [hp.seated.mpr hp'] at h; simp at h
  have hon : y.power ≠ .on := by rw [hn]; simp
  exact linkLegal_down (by simp [Bay.seated]) rfl (hy.down_of hon).2 hy.places

/-- Settles O5: each move of a bay keeps the link state in agreement, those that end steps or place held
results by the test of R104; a completed seating finds no step in flight. -/
theorem stepKeepsLinkLegal : Obligations.StepKeepsLinkLegal := by
  intro s t hs h
  exact step_keepsBay (P := fun y => y.PowerLegal ∧ y.LinkLegal)
    (fun y z hm hy => ⟨hm.powerLegal hy.1, hm.linkLegal hy.2⟩) ⟨powerLegal_reset, linkLegal_reset⟩
    (fun y hy hp => ⟨PowerLegal.seated hp.1 hy, hp.2.seated hp.1 hy⟩) hs h

end Sys2Proof.Machine
end

section
/-! PROOF. Applied values and stored parameters (R94, R95): each is an allowed one. -/

namespace Sys2Proof.Machine

open Sys2Proof.Claims

variable {s t : State} {b : BayId} {y z : Bay}

/-! ## Clamped values (Table 6.5) -/

theorem clampStep_stepped {step least most : Nat} (hl : least % step = 0) (hm : most % step = 0)
    (h : least ≤ most) (v : Nat) : stepped step least most (clampStep step least most v) := by
  refine ⟨le_max_left _ _, max_le h (min_le_left _ _), ?_⟩
  unfold clampStep
  rcases max_choice least (min most (v / step * step)) with h1 | h1 <;> rw [h1]
  · exact hl
  · rcases min_choice most (v / step * step) with h2 | h2 <;> rw [h2]
    · exact hm
    · exact Nat.mul_mod_left _ _

/-- A value of a step lowered to another stays one of that step. -/
theorem stepped_min {step least most a c : Nat} (ha : stepped step least most a) (hc : least ≤ c)
    (hd : c % step = 0) : stepped step least most (min a c) := by
  refine ⟨le_min ha.1 hc, (min_le_left _ _).trans ha.2.1, ?_⟩
  rcases min_choice a c with h | h <;> rw [h]
  · exact ha.2.2
  · exact hd

/-- A brownout_mv held 200 below an allowed supply_mv is an allowed one (R94, R95). -/
theorem brownout_min {a sv : Nat} (ha : stepped 10 2500 4400 a) (hs : stepped 10 3000 4600 sv) :
    stepped 10 2500 4400 (min a (sv - 200)) := by
  obtain ⟨h1, h2, h3⟩ := hs
  exact stepped_min ha (by omega) (by omega)

theorem clampCurrent_inRange (x : Int) : currentInRange (clampCurrent x) := by
  unfold currentInRange clampCurrent Config.currentLeast Config.currentMost
  omega

theorem max_inRange {x z : Int} (hx : currentInRange x) (hz : currentInRange z) :
    currentInRange (max x z) := ⟨le_max_of_le_left hx.1, max_le hx.2 hz.2⟩

theorem clampCount_mem (v : Nat) : clampCount v ∈ [1, 2, 3, 4, 8, 16, 32, 64] := by
  unfold clampCount
  split_ifs <;> simp

theorem clampRate_mem (v : Nat) : clampRate v ∈ [115200, 460800, 921600] := by
  unfold clampRate
  split_ifs <;> simp

/-- An applied set holds allowed values alone. -/
structure Settings.Allowed (a : Settings) : Prop where
  supply   : ∀ x, a.supplyMv = some x → stepped 10 3000 4600 x
  limit    : ∀ x, a.limitMa = some x → stepped 10 100 4000 x
  trip     : ∀ x, a.tripMs = some x → stepped 1 1 1000 x
  brownout : ∀ x, a.brownoutMv = some x → stepped 10 2500 4400 x
  headroom : ∀ x v, a.brownoutMv = some x → a.supplyMv = some v → x ≤ v - 200
  key      : ∀ x, a.keyMs = some x → stepped 1 100 5000 x
  boot     : ∀ x, a.bootDeadlineMs = some x → stepped 1 1000 120000 x
  reply    : ∀ x, a.replyDeadlineMs = some x → stepped 1 10 60000 x
  extend   : ∀ x, a.extendLimit = some x → x ≤ 15
  settle   : ∀ x, a.settleMs = some x → x ≤ 500
  window   : ∀ x, a.monitorWindow = some x → stepped 1 10 30000 x
  lo       : ∀ x, a.monitorLo = some x → currentInRange x
  hi       : ∀ x, a.monitorHi = some x → currentInRange x
  band     : ∀ x v, a.monitorHi = some x → a.monitorLo = some v → v ≤ x
  count    : ∀ x, a.monitorCount = some x → x ∈ [1, 2, 3, 4, 8, 16, 32, 64]

theorem lowerTo_stepped {supply : Option Nat} {x : Nat} (hx : stepped 10 2500 4400 x)
    (hs : ∀ v, supply = some v → stepped 10 3000 4600 v) : stepped 10 2500 4400 (lowerTo supply x) := by
  cases supply with
  | none => exact hx
  | some v => exact brownout_min hx (hs v rfl)

theorem raiseTo_inRange {lo : Option Int} {x : Int} (hx : currentInRange x)
    (hl : ∀ v, lo = some v → currentInRange v) : currentInRange (raiseTo lo x) := by
  cases lo with
  | none => exact hx
  | some v => exact max_inRange hx (hl v rfl)

/-- A value of a mapped option that satisfies what every image satisfies. -/
theorem map_allowed {α β : Type} {o : Option α} {f : α → β} {P : β → Prop} (hf : ∀ x, P (f x)) :
    ∀ v, o.map f = some v → P v := by
  intro v hv
  obtain ⟨x, -, rfl⟩ := Option.map_eq_some_iff.mp hv
  exact hf x

theorem applied_allowed (v : Settings) : v.applied.Allowed := by
  have hsupply : ∀ x, v.applied.supplyMv = some x → stepped 10 3000 4600 x :=
    map_allowed (clampStep_stepped rfl rfl (by decide))
  have hlo : ∀ x, v.applied.monitorLo = some x → currentInRange x := map_allowed clampCurrent_inRange
  refine
    { supply := hsupply
      limit := map_allowed (clampStep_stepped rfl rfl (by decide))
      trip := map_allowed (clampStep_stepped rfl rfl (by decide))
      brownout := map_allowed fun x => lowerTo_stepped (clampStep_stepped rfl rfl (by decide) x) hsupply
      headroom := fun x w hx hw => ?_
      key := map_allowed (clampStep_stepped rfl rfl (by decide))
      boot := map_allowed (clampStep_stepped rfl rfl (by decide))
      reply := map_allowed (clampStep_stepped rfl rfl (by decide))
      extend := map_allowed fun x => (clampStep_stepped rfl rfl (by decide) x).2.1
      settle := map_allowed fun x => (clampStep_stepped rfl rfl (by decide) x).2.1
      window := map_allowed (clampStep_stepped rfl rfl (by decide))
      lo := hlo
      hi := map_allowed fun x => raiseTo_inRange (clampCurrent_inRange x) hlo
      band := fun x w hx hw => ?_
      count := map_allowed clampCount_mem }
  · obtain ⟨o, -, rfl⟩ := Option.map_eq_some_iff.mp hx
    rw [show v.supplyMv.map _ = some w from hw]
    exact min_le_right _ _
  · obtain ⟨o, -, rfl⟩ := Option.map_eq_some_iff.mp hx
    rw [show v.monitorLo.map _ = some w from hw]
    exact le_max_right _ _

/-! ## Stored parameters (R95) -/

theorem getD_allowed {α : Type} {P : α → Prop} {o : Option α} {d : α} (ho : ∀ x, o = some x → P x)
    (hd : P d) : P (o.getD d) := by
  cases o with
  | none => exact hd
  | some x => exact ho x rfl

/-- The stored brownout_mv is allowed, and at most 200 below the stored supply_mv. -/
theorem storedBrownout_legal {a : Settings} {p : Params} (ha : a.Allowed) (hp : p.Legal) :
    stepped 10 2500 4400 (storedBrownout a p)
      ∧ storedBrownout a p ≤ a.supplyMv.getD p.supplyMv - 200 := by
  unfold storedBrownout
  cases hb : a.brownoutMv with
  | none =>
    cases hs : a.supplyMv with
    | none => exact ⟨hp.brownout, hp.headroom⟩
    | some v => exact ⟨brownout_min hp.brownout (ha.supply v hs), min_le_right _ _⟩
  | some x =>
    cases hs : a.supplyMv with
    | none => exact ⟨brownout_min (ha.brownout x hb) hp.supply, min_le_right _ _⟩
    | some v => exact ⟨ha.brownout x hb, ha.headroom x v hb hs⟩

/-- The stored monitor_hi is allowed, and at least the stored monitor_lo. -/
theorem storedHi_legal {a : Settings} {p : Params} (ha : a.Allowed) (hp : p.Legal) :
    currentInRange (storedHi a p) ∧ a.monitorLo.getD p.monitorLo ≤ storedHi a p := by
  unfold storedHi
  cases hh : a.monitorHi with
  | none =>
    cases hl : a.monitorLo with
    | none => exact ⟨hp.hi, hp.band⟩
    | some v => exact ⟨max_inRange hp.hi (ha.lo v hl), le_max_right _ _⟩
  | some x =>
    cases hl : a.monitorLo with
    | none => exact ⟨max_inRange (ha.hi x hh) hp.lo, le_max_right _ _⟩
    | some v => exact ⟨ha.hi x hh, ha.band x v hh hl⟩

theorem store_legal {a : Settings} {p : Params} (ha : a.Allowed) (hp : p.Legal) :
    (p.store a).Legal :=
  { supply := getD_allowed ha.supply hp.supply
    limit := getD_allowed ha.limit hp.limit
    trip := getD_allowed ha.trip hp.trip
    brownout := (storedBrownout_legal ha hp).1
    key := getD_allowed ha.key hp.key
    boot := getD_allowed ha.boot hp.boot
    reply := getD_allowed ha.reply hp.reply
    extend := getD_allowed ha.extend hp.extend
    settle := getD_allowed ha.settle hp.settle
    window := getD_allowed ha.window hp.window
    lo := getD_allowed ha.lo hp.lo
    hi := (storedHi_legal ha hp).1
    count := getD_allowed ha.count hp.count
    headroom := (storedBrownout_legal ha hp).2
    band := (storedHi_legal ha hp).2 }

/-- The invariant says nothing of range_mode. -/
theorem paramsLegal_rangeMode {p : Params} {m : RangeMode} (hp : p.Legal) :
    ({ p with rangeMode := m } : Params).Legal := { hp with }

theorem paramsLegal_reset : Params.reset.Legal := by
  constructor
  case extend | settle | count | headroom | band => decide
  case lo | hi => exact ⟨by decide, by decide⟩
  all_goals exact ⟨by decide, by decide, by decide⟩

theorem BayMove.paramsLegal (h : BayMove y z) (hy : y.params.Legal) : z.params.Legal := by
  cases h with
  | rest h =>
    have hz : { z.params with rangeMode := .auto } = { y.params with rangeMode := .auto } :=
      congrArg Bay.params h
    have hl : ({ z.params with rangeMode := .auto } : Params).Legal := by
      rw [hz]; exact paramsLegal_rangeMode hy
    exact { hl with }
  | on => rw [relink_eq]; exact hy
  | relinked => rw [relink_eq]; exact hy
  | down ms p h hp =>
    obtain ⟨k, l, hoff⟩ := supplyOff_explicit h
    rw [hoff]
    exact paramsLegal_rangeMode hy
  | removed ms =>
    by_cases h : y.power.outputOn = true
    · obtain ⟨k, l, hoff⟩ := supplyOff_explicit h
      rw [hoff]
      exact paramsLegal_rangeMode hy
    · rw [Bay.supplyOff, if_neg h]
      exact hy
  | configure v =>
    rw [configure_eq]
    exact paramsLegal_rangeMode (store_legal (applied_allowed v) hy)
  | boundary c =>
    unfold Bay.boundary
    split
    · exact paramsLegal_rangeMode hy
    · exact hy
    · exact hy
  | stationReset => exact paramsLegal_reset
  | seat | press | release | booting | powering | off | zero | calibrated | append | monitor
  | window | inFlight | dispatch => exact hy

/-- Every step keeps every stored parameter at an allowed value (R95). -/
theorem step_paramsLegal (hs : s.ParamsLegal) (h : step s = .next t) : t.ParamsLegal :=
  step_keepsBay (P := fun y => y.params.Legal) (fun _ _ hm hy => hm.paramsLegal hy) paramsLegal_reset
    (fun _ _ hp => hp) hs h

/-! ## The applied values, exactly -/

theorem clampStep_one (least most v : Nat) :
    clampStep 1 least most v = max least (min most v) := by simp [clampStep]

theorem clampStep_zero (most v : Nat) : clampStep 1 0 most v = min most v := by simp [clampStep]

theorem clampRate_greatest (v : Nat) : (v < 115200 → clampRate v = 115200)
    ∧ (115200 ≤ v → clampRate v ≤ v)
    ∧ ∀ z ∈ [115200, 460800, 921600], z ≤ v → z ≤ clampRate v := by
  unfold clampRate
  refine ⟨fun h => ?_, fun h => ?_, ?_⟩
  · split_ifs <;> omega
  · split_ifs <;> omega
  · simp only [List.mem_cons, List.not_mem_nil, or_false]
    rintro z (rfl | rfl | rfl) h <;> split_ifs <;> omega

theorem clampCount_least (v : Nat) : (64 < v → clampCount v = 64) ∧ (v ≤ 64 → v ≤ clampCount v)
    ∧ ∀ z ∈ [1, 2, 3, 4, 8, 16, 32, 64], v ≤ z → clampCount v ≤ z := by
  unfold clampCount
  refine ⟨fun h => ?_, fun h => ?_, ?_⟩
  · split_ifs <;> omega
  · split_ifs <;> omega
  · simp only [List.mem_cons, List.not_mem_nil, or_false]
    rintro z (rfl | rfl | rfl | rfl | rfl | rfl | rfl | rfl) h <;> split_ifs <;> omega

/-- Settles O35: each applied value is the clamp of the one carried, which is read off parameter by
parameter. -/
theorem appliedValuesAreAllowed : Obligations.AppliedValuesAreAllowed := by
  intro v a
  have ha : a.Allowed := applied_allowed v
  refine ⟨?_, ?_, ?_, ?_, ?_, ?_, ?_, ?_, ?_, ?_, ?_, ?_, ?_, ?_, ?_, ?_, ?_, ?_, ?_, ?_⟩
  · intro x h; simp [a, Settings.applied, h, clampStep, Nat.mul_comm]
  · intro x h; simp [a, Settings.applied, h, clampStep, Nat.mul_comm]
  · intro x h
    have hb : a.brownoutMv = some (lowerTo a.supplyMv (clampStep 10 2500 4400 x)) := by
      simp [a, Settings.applied, h]
    refine ⟨_, hb, ha.brownout _ hb, fun hn => ?_, fun sv hs => ?_⟩
    · simp [a, Settings.applied, hn, lowerTo, clampStep, Nat.mul_comm]
    · rw [hs]; simp [lowerTo, clampStep, Nat.mul_comm]
  · intro x h; simp [a, Settings.applied, h, clampStep_one]
  · intro x h; simp [a, Settings.applied, h, clampStep_one]
  · intro x h; simp [a, Settings.applied, h, clampStep_one]
  · intro x h; simp [a, Settings.applied, h, clampStep_one]
  · intro x h; simp [a, Settings.applied, h, clampStep_zero]
  · intro x h; simp [a, Settings.applied, h, clampStep_zero]
  · intro x h; simp [a, Settings.applied, h, clampStep_one]
  · intro x h
    obtain ⟨h1, h2, h3⟩ := clampRate_greatest x
    exact ⟨clampRate x, by simp [a, Settings.applied, h], clampRate_mem x, h1, h2, h3⟩
  · intro x h
    obtain ⟨h1, h2, h3⟩ := clampCount_least x
    exact ⟨clampCount x, by simp [a, Settings.applied, h], clampCount_mem x, h1, h2, h3⟩
  · intro x h
    simp [a, Settings.applied, h, clampCurrent, Config.currentLeast, Config.currentMost]
  · intro x h
    have hb : a.monitorHi = some (raiseTo a.monitorLo (clampCurrent x)) := by
      simp [a, Settings.applied, h]
    refine ⟨_, hb, ha.hi _ hb, fun hn => ?_, fun lo hl => ?_⟩
    · simp [a, Settings.applied, hn, raiseTo, clampCurrent, Config.currentLeast, Config.currentMost]
    · rw [hl]; simp [raiseTo, clampCurrent, Config.currentLeast, Config.currentMost]
  · intro x h; simp [a, Settings.applied, h, clampMode]
  · intro x h; simp [a, Settings.applied, h, clampSwitch]
  · intro x h; simp [a, Settings.applied, h, clampSwitch]
  · intro x h; simp [a, Settings.applied, h, clampSwitch]
  · intro h; simp [a, Settings.applied, h]
  · intro h; simp [a, Settings.applied, h]

end Sys2Proof.Machine
end

section
/-! PROOF. What every move leaves: the waiting commands and the bay count, and the bounds of the link and the
log; the step, the state after reset as far as single blocks go, and the settle timer. -/

namespace Sys2Proof.Machine

open Sys2Proof.Claims

variable {s t : State} {b : BayId} {c : AttClass} {y z : Bay}

/-! ## The Attention Unit under a re-evaluation -/

/-- What flags and the notice queue leave of the Attention Unit. -/
structure SameAttention (s t : State) : Prop where
  levels    : t.atu.levels = s.atu.levels
  threshold : t.atu.threshold = s.atu.threshold
  ring      : t.atu.ring = s.atu.ring
  dropped   : t.atu.dropped = s.atu.dropped
  next      : t.atu.nextPosition = s.atu.nextPosition

theorem SameAttention.refl (s : State) : SameAttention s s := ⟨rfl, rfl, rfl, rfl, rfl⟩

theorem SameAttention.trans {u : State} (h : SameAttention s t) (h' : SameAttention t u) :
    SameAttention s u :=
  ⟨h'.1.trans h.1, h'.2.trans h.2, h'.3.trans h.3, h'.4.trans h.4, h'.5.trans h.5⟩

theorem reevaluateFlag_same (x : BayId × AttClass) : SameAttention s (s.reevaluateFlag x) := by
  unfold State.reevaluateFlag
  simp only
  split
  · split <;> exact ⟨rfl, rfl, rfl, rfl, rfl⟩
  all_goals exact .refl s

theorem reevaluateFlags_same (l : List (BayId × AttClass)) (v : State) :
    SameAttention v (l.foldl State.reevaluateFlag v) := by
  induction l generalizing v with
  | nil => exact .refl v
  | cons x l ih => exact (reevaluateFlag_same x).trans (ih _)

theorem reevaluate_same : SameAttention s s.reevaluate :=
  SameAttention.trans (t := { s with atu := { s.atu with queue := [] } }) ⟨rfl, rfl, rfl, rfl, rfl⟩
    (reevaluateFlags_same _ _)

/-! ## The waiting commands and the bay count -/

/-- Two states with the same waiting commands and the same bay count. -/
def SameQueue (s t : State) : Prop := t.pending = s.pending ∧ t.bayCount = s.bayCount

theorem SameQueue.trans {u : State} (h : SameQueue s t) (h' : SameQueue t u) : SameQueue s u :=
  ⟨h'.1.trans h.1, h'.2.trans h.2⟩

theorem SameBesidesAtu.queue (h : SameBesidesAtu s t) : SameQueue s t := ⟨h.pending, h.bayCount⟩

theorem placeHeld_queue : SameQueue s s.placeHeld := by
  obtain ⟨h1, -, -, -, -, -, h2, -⟩ := placeHeldFrom_frame (rs := s.clb.hold) (s := s)
  exact ⟨h2, h1⟩

theorem Move.queue (h : Move s t) : SameQueue s t := by
  cases h with
  | bays t he hb hw => rw [he]; exact ⟨rfl, rfl⟩
  | finals b rs z hb hr hw => rw [handOvers_eq]; exact ⟨rfl, rfl⟩
  | interim r st hf ht hk => rw [collate_eq]; exact ⟨rfl, rfl⟩
  | send r tag w S ht hx hn hj =>
    unfold State.startExchange
    split
    · exact ⟨rfl, rfl⟩
    · exact ⟨by simp, by simp⟩
  | placing => exact placeHeld_queue
  | batchEnd e rest he =>
    obtain ⟨-, -, -, -, -, h1, h2⟩ :=
      reportEntry_frame (s := { s with clb := s.clb.freeHead e rest }) e
    exact SameQueue.trans ⟨h1, h2⟩ placeHeld_queue
  | blocksReset => exact ⟨by simp [State.blocksReset], by simp [State.blocksReset]⟩
  | raise b c d => exact raiseFlag_frame.queue
  | clear b c => exact clearFlag_frame.queue
  | levels ls n =>
    exact (reevaluate_frame (s := { s with
      atu := { s.atu with levels := ls, threshold := n } })).queue
  | noticeTaken b c rest hq => exact ⟨rfl, rfl⟩
  | noticeEnded b c =>
    unfold State.noticeEnded
    split <;> exact ⟨rfl, rfl⟩
  | cancelled | batchTaken | entries | batching | link | settings | log => exact ⟨rfl, rfl⟩

theorem Moves.queue (h : Moves s t) : SameQueue s t :=
  h.keeps (P := SameQueue s) (fun _ _ hm hs => hs.trans hm.queue) ⟨rfl, rfl⟩

/-- Settles O2: a sequence of moves, a completed seating and a power-on reset all answer a next state and
keep the waiting commands. -/
theorem everyCommandCompletes : Obligations.EveryCommandCompletes := by
  intro c s
  by_cases hseat : ∃ b, c = .seatDebounceExpiry b
  · obtain ⟨b, rfl⟩ := hseat
    refine ⟨_, exec_seatDebounceExpiry, ?_, fun _ => ?_⟩
    · split
      · simp [completeSeating_eq]
      · rfl
    · split
      · simp [completeSeating_eq]
      · rfl
  · by_cases hreset : ∃ p q, c = .powerOnReset p q
    · obtain ⟨p, q, rfl⟩ := hreset
      exact ⟨_, rfl, rfl, fun h => absurd rfl (h p q)⟩
    · obtain ⟨t, ht, hm⟩ := exec_moves c s (fun b h => hseat ⟨b, h⟩) fun p q h => hreset ⟨p, q, h⟩
      exact ⟨t, ht, hm.queue.1, fun _ => hm.queue.2⟩

/-! ## The bounds of the link and the log -/

theorem linkBounds_of (hb : s.LinkBounds) (hl : t.slc = s.slc) (hr : t.atu.ring = s.atu.ring) :
    t.LinkBounds := ⟨by rw [hl]; exact hb.claimed, by rw [hr]; exact hb.ring,
      by rw [hl]; exact hb.dropped⟩

theorem placeHeld_same : s.placeHeld.slc = s.slc ∧ s.placeHeld.atu = s.atu := by
  obtain ⟨-, -, -, -, h1, h2, -, -⟩ := placeHeldFrom_frame (rs := s.clb.hold) (s := s)
  exact ⟨h2, h1⟩

theorem Move.linkBounds (h : Move s t) (hb : s.LinkBounds) : t.LinkBounds := by
  cases h with
  | bays t he _ hw => rw [he]; exact linkBounds_of hb rfl rfl
  | finals b rs z _ hr hw => rw [handOvers_eq]; exact linkBounds_of hb rfl rfl
  | interim r st hf ht hk => rw [collate_eq]; exact linkBounds_of hb rfl rfl
  | send r tag w S ht hx hn hj =>
    unfold State.startExchange
    split
    · exact hb
    · exact linkBounds_of hb (by simp) (by simp)
  | placing => exact linkBounds_of hb placeHeld_same.1 (congrArg Atu.ring placeHeld_same.2)
  | batchEnd e rest he =>
    obtain ⟨-, -, h1, h2, -, -, -⟩ := reportEntry_frame (s := { s with clb := s.clb.freeHead e rest }) e
    exact linkBounds_of hb (placeHeld_same.1.trans h1)
      (congrArg Atu.ring (placeHeld_same.2.trans h2))
  | blocksReset =>
    refine ⟨?_, Nat.zero_le _, Nat.zero_le _⟩
    have h : s.blocksReset.slc.claimed = s.slc.claimed := by
      simp [State.blocksReset, Slc.claimed]
    rw [h]
    exact hb.claimed
  | link l hc hd => exact ⟨hc hb.claimed, hb.ring, hd hb.dropped⟩
  | raise b c d => exact linkBounds_of hb raiseFlag_slc raiseFlag_settings.2.2.1
  | levels ls n => exact linkBounds_of hb reevaluate_frame.slc reevaluate_same.ring
  | noticeEnded b c =>
    unfold State.noticeEnded
    split <;> exact linkBounds_of hb rfl rfl
  | log ring dropped h => exact ⟨hb.claimed, h hb.ring, hb.dropped⟩
  | cancelled | batchTaken | entries | batching | settings | clear | noticeTaken =>
    exact linkBounds_of hb rfl rfl

theorem linkBounds_reset (hl : s.slc = Slc.reset) (ha : s.atu = Atu.reset) : s.LinkBounds :=
  ⟨by rw [hl]; decide, by rw [ha]; decide, by rw [hl]; decide⟩

/-- Every step keeps the claimed places of the answer queue at most four, the lines of the log ring at
most 64 and the frames-dropped count at most 255. -/
theorem step_linkBounds (hs : s.LinkBounds) (h : step s = .next t) : t.LinkBounds := by
  refine step_keeps (P := State.LinkBounds) (fun s l h => ⟨h.1, h.2, h.3⟩) (fun s t hm hb => hm.linkBounds hb)
    (fun s b _ hb => linkBounds_of hb ?_ ?_) (fun p q s t h => ?_) hs h
  · simp [completeSeating_eq]
  · rw [completeSeating_eq, raiseFlag_settings.2.2.1, modBay_atu]
  · obtain ⟨-, -, ha, hl⟩ := powerOnReset_frame h
    exact linkBounds_reset hl ha

/-! ## The step -/

theorem bay_tick_eq (y : Bay) :
    let less : Timer → Timer := fun m => { m with left := m.left - 1 }
    y.tick = { y with
      bootTimer := y.bootTimer.map fun n => min 600000 (n + 1)
      debounce := y.debounce.map less, removal := y.removal.map less
      rise := y.rise.map less, key := y.key.map less
      bootDeadline := y.bootDeadline.map less, limitTrip := y.limitTrip.map less
      brownoutTrip := y.brownoutTrip.map less, windowDelay := y.windowDelay.map less
      flight := match y.flight with
        | .step st =>
          match st.deadline with
          | .running m => .step { st with
              deadline := .running (less m), clock := min 960000 (st.clock + 1) }
          | .notStarted => .step st
          | .stopped => .step st
        | .empty => .empty
        | .held u => .held u
      line := { y.line with
        assembly := y.line.assembly.map fun a => { a with timer := less a.timer } }
      mu := { y.mu with settleTimer := y.mu.settleTimer.map less } } := by
  have hflight : y.flight.tick = match y.flight with
        | .step st =>
          match st.deadline with
          | .running m => .step { st with
              deadline := .running m.tick, clock := min 960000 (st.clock + 1) }
          | .notStarted => .step st
          | .stopped => .step st
        | .empty => .empty
        | .held u => .held u := by
    cases y.flight with
    | step st => cases h : st.deadline <;> simp [Flight.tick, Step.tick, h, Deadline.tick,
        Config.elapsedMost]
    | empty | held u => rfl
  exact congrArg (fun fl => ({ y.tick with flight := fl } : Bay)) hflight

/-- Settles O1: the front of the queue is run with the rest left waiting; on an empty queue each bay
and the gap timer tick. -/
theorem stepTakesFrontCommand : Obligations.StepTakesFrontCommand := by
  refine ⟨fun c rest s => rfl, ?_⟩
  intro s h less
  refine ⟨s.tick, by simp only [step, h], ?_, fun b => ?_⟩
  · simp only [State.tick, State.mapBays]
    rfl
  · rw [tick_bay]
    exact bay_tick_eq _

/-- Settles O28: the expiry of a running settle timer clears it at its own bay. -/
theorem settleExpiryEndsTheInterval : Obligations.SettleExpiryEndsTheInterval :=
  fun _ _ _ => rfl

/-! ## The state after reset -/

theorem reset_bay (b : BayId) : State.reset.bay b = Bay.reset := by
  simp [State.bay, State.reset, Vector.get_eq_getElem]

theorem reset_flag (b : BayId) (c : AttClass) : State.reset.flag b c = .cleared := by
  simp [State.flag, State.reset, Atu.reset, Vector.get_eq_getElem]

theorem exchangesLegal_of_empty (h : s.exchanges = []) : s.ExchangesLegal :=
  ⟨by simp [h], by simp [h], by simp [h]⟩

theorem clbLegal_reset : Clb.reset.Legal := ⟨by decide, by decide, by decide, by decide, by decide⟩

/-- With every flag CLEAR and unqueued and nothing in the queue. -/
theorem noticesLegal_of_clear (hq : s.atu.queue = [])
    (hf : ∀ b c, (s.flag b c).state = .clear ∧ (s.flag b c).queued = false) : s.NoticesLegal :=
  { once := by simp [hq]
    queued := fun b c => by simp [hq, hf]
    raised := fun b c h => by rw [(hf b c).2] at h; exact absurd h (by simp)
    qualified := fun b c h => by rw [(hf b c).1] at h; exact absurd h (by simp)
    order := by simp [hq]
    distinct := fun b c _ _ h => absurd (hf b c).1 h
    positions := fun b c h => absurd (hf b c).1 h }

/-- With no exchange, nothing in the Collation Buffer and no step at a bay. -/
theorem accountsLegal_of_empty (hl : s.LinkLegal) (hx : s.exchanges = []) (hc : s.clb = Clb.reset)
    (hb : ∀ b u, (s.bay b).stepsOf u = 0) : s.AccountsLegal :=
  { link := hl
    exchanges := exchangesLegal_of_empty hx
    clb := by rw [hc]; exact clbLegal_reset
    steps := fun u b => by simp [hb, State.pendingAt, State.exchange?, hx]
    finals := by simp [hx]
    homes := by simp [hc, Clb.reset]
    held := by simp [hc, Clb.reset]
    sending := by simp [hc, Clb.reset]
    last := by simp [hc, Clb.reset] }

/-- Settles O9, block by block. -/
theorem resetMeetsTheInvariants : Obligations.ResetMeetsTheInvariants := by
  have hl : State.reset.LinkLegal := fun b => by
    rw [reset_bay]; exact ⟨powerLegal_reset, linkLegal_reset⟩
  exact ⟨fun b => by rw [reset_bay]; exact powerLegal_reset, hl,
    fun b => by rw [reset_bay]; exact ⟨powerLegal_reset, unitLegal_reset⟩,
    fun b => by rw [reset_bay]; exact paramsLegal_reset, exchangesLegal_of_empty rfl, clbLegal_reset,
    noticesLegal_of_clear rfl fun b c => by rw [reset_flag]; exact ⟨rfl, rfl⟩,
    linkBounds_reset rfl rfl,
    accountsLegal_of_empty hl rfl rfl fun b u => by rw [reset_bay]; rfl⟩

end Sys2Proof.Machine
end

section
/-! PROOF. The Collation Buffer, kept legal by every step (R125, R130, R139). -/

namespace Sys2Proof.Machine

open Sys2Proof.Claims

variable {s t : State} {b : BayId} {e : Entry} {es es' : List Entry} {n : Nat} {r : Result}

/-! ## The opening list -/

/-- What Clb.Legal says of the opening list and the mark count. -/
structure EntriesLegal (es : List Entry) (n : Nat) : Prop where
  count   : es.length ≤ 8
  keys    : (openKeys es).Nodup
  sending : ∀ e ∈ es.tail, e.sending = false
  marks   : n = (es.filter Entry.marked).length

theorem Clb.Legal.entries {c : Clb} (h : c.Legal) : EntriesLegal c.entries c.markCount :=
  ⟨h.count, h.keys, h.sending, h.marks⟩

theorem clbLegal_of_entries {c : Clb} (h : EntriesLegal c.entries c.markCount)
    (hh : c.hold ≠ [] → c.entries.length = 8) : c.Legal :=
  ⟨h.count, h.keys, h.sending, hh, h.marks⟩

/-- A change of every entry that leaves tag, board and state keeps the keys. -/
theorem openKeys_map {f : Entry → Entry} (hf : ∀ e, (f e).tag = e.tag ∧ (f e).board = e.board
    ∧ (f e).sending = e.sending) (es : List Entry) : openKeys (es.map f) = openKeys es := by
  have hs : (fun e => !e.sending) ∘ f = fun e => !e.sending := by
    funext e; simp [(hf e).2.2]
  simp only [openKeys, List.filter_map, List.map_map, hs]
  congr 1
  funext e
  simp [(hf e).1, (hf e).2.1]

theorem EntriesLegal.map {f : Entry → Entry} {m : Nat} (h : EntriesLegal es n)
    (hf : ∀ e, (f e).tag = e.tag ∧ (f e).board = e.board ∧ (f e).sending = e.sending)
    (hm : m = ((es.map f).filter Entry.marked).length) : EntriesLegal (es.map f) m := by
  refine ⟨by simpa using h.count, by rw [openKeys_map hf]; exact h.keys, fun e he => ?_, hm⟩
  rw [← List.map_tail, List.mem_map] at he
  obtain ⟨e', he', rfl⟩ := he
  rw [(hf e').2.2]
  exact h.sending e' he'

theorem openKeys_cons_subset : (openKeys es).Sublist (openKeys (e :: es)) := by
  unfold openKeys
  exact (List.Sublist.filter _ (List.sublist_cons_self e es)).map _

/-- The keys of the OPEN entries grow by that of an OPEN entry. -/
theorem openKeys_append (he : e.sending = false) :
    openKeys (es ++ [e]) = openKeys es ++ [(e.tag, e.board)] := by
  simp [openKeys, he]

theorem mem_openKeys {k : Tag × Fin 3} :
    k ∈ openKeys es ↔ ∃ e ∈ es, e.sending = false ∧ (e.tag, e.board) = k := by
  simp [openKeys, and_assoc]

/-- The placing of a result by case 1 or 2 of Table 8.2. -/
theorem EntriesLegal.placed (h : EntriesLegal es n) (hp : placeIn r es = some es') :
    EntriesLegal es' n := by
  obtain ⟨-, hm⟩ | ⟨hno, hl, ho⟩ | ⟨-, -, hn⟩ := placeIn_cases (r := r) (es := es)
  · rw [hm] at hp
    cases hp
    have hmark : (es.filter fun e => ((if e.takes r.tag (boardOf r.bay) then e.merge r else e)).marked)
        = es.filter Entry.marked := List.filter_congr fun e _ => by split <;> rfl
    refine h.map (fun e => by split <;> exact ⟨rfl, rfl, rfl⟩) ?_
    rw [List.filter_map, List.length_map, h.marks]
    exact congrArg List.length hmark.symm
  · rw [ho] at hp
    cases hp
    refine ⟨by simpa using hl, ?_, fun e he => ?_, by simpa [Entry.openedWith, Entry.marked] using h.marks⟩
    · rw [openKeys_append rfl, List.nodup_append]
      refine ⟨h.keys, by simp, fun k hk k' hk' => ?_⟩
      obtain rfl := List.mem_singleton.mp hk'
      rintro rfl
      obtain ⟨e, he, hs, hk⟩ := mem_openKeys.mp hk
      have hkey : e.tag = r.tag ∧ e.board = boardOf r.bay := Prod.mk.injEq .. ▸ hk
      have := hno e he
      simp [Entry.takes, hkey, hs] at this
    · cases es with
      | nil => simp at he
      | cons x xs =>
        rw [List.cons_append, List.tail_cons, List.mem_append, List.mem_singleton] at he
        rcases he with he | rfl
        · exact h.sending e he
        · rfl
  · rw [hn] at hp
    exact absurd hp (by simp)

theorem EntriesLegal.placedAll {rs : List Result} (h : EntriesLegal es n)
    (hp : rs.foldlM (fun es r => placeIn r es) es = some es') : EntriesLegal es' n := by
  induction rs generalizing es with
  | nil => cases hp; exact h
  | cons r rs ih =>
    rw [List.foldlM_cons] at hp
    cases hc : placeIn r es with
    | none => rw [hc] at hp; exact absurd hp (by simp)
    | some xs => rw [hc] at hp; exact ih (h.placed hc) hp

/-- No place for a result means that all eight entries are occupied. -/
theorem EntriesLegal.full (h : EntriesLegal es n) (hp : placeIn r es = none) : es.length = 8 := by
  obtain ⟨-, hm⟩ | ⟨-, -, ho⟩ | ⟨-, hl, -⟩ := placeIn_cases (r := r) (es := es)
  · rw [hm] at hp; exact absurd hp (by simp)
  · rw [ho] at hp; exact absurd hp (by simp)
  · exact le_antisymm h.count hl

theorem EntriesLegal.tail (h : EntriesLegal (e :: es) n) :
    EntriesLegal es (if e.marked then n - 1 else n) := by
  refine ⟨Nat.le_of_succ_le h.count, h.keys.sublist openKeys_cons_subset,
    fun e' he' => h.sending e' (List.mem_of_mem_tail he'), ?_⟩
  rw [h.marks, List.filter_cons]
  split <;> simp

/-! ## Handovers and passes -/

theorem clbLegal_congr {c d : Clb} (h : c.Legal) (he : d.entries = c.entries) (hh : d.hold = c.hold)
    (hm : d.markCount = c.markCount) : d.Legal :=
  ⟨by rw [he]; exact h.count, by rw [he]; exact h.keys, by rw [he]; exact h.sending,
    by rw [he, hh]; exact h.hold, by rw [he, hm]; exact h.marks⟩

theorem collate_legal (h : s.clb.Legal) : (s.collate r).1.clb.Legal := by
  have hlen {es} (hp : placeIn r s.clb.entries = some es) (hn : s.clb.hold ≠ []) :
      es.length = 8 := by
    have h8 := h.hold hn
    have hc := (h.entries.placed hp).count
    refine le_antisymm hc ?_
    obtain ⟨-, hm⟩ | ⟨-, hl, -⟩ | ⟨-, -, hn⟩ := placeIn_cases (r := r) (es := s.clb.entries)
    · rw [hm] at hp; cases hp; exact (List.length_map _).symm ▸ h8.ge
    · exact absurd hl (by rw [h8]; decide)
    · rw [hn] at hp; exact absurd hp (by simp)
  unfold State.collate
  split
  · next es hp =>
    exact clbLegal_of_entries (h.entries.placed hp) (hlen hp)
  · next hp =>
    split
    · exact clbLegal_of_entries h.entries fun _ => h.entries.full hp
    · exact h

theorem handOver_legal (h : s.clb.Legal) : (s.handOver r).1.clb.Legal := collate_legal (s :=
  s.modExchange r.tag fun x => x.finalFormed r.bay) h

theorem handOvers_legal {rs : List Result} (h : s.clb.Legal) : (handOvers rs s).1.clb.Legal := by
  induction rs generalizing s with
  | nil => exact h
  | cons r rs ih => exact ih (handOver_legal h)

theorem placeHeld_legal (h : EntriesLegal s.clb.entries s.clb.markCount) : s.placeHeld.clb.Legal := by
  obtain ⟨placed, -, hp, -, hn, hc⟩ := placeHeld_spec s
  have he := h.placedAll hp
  have hm : s.placeHeld.clb.markCount = s.clb.markCount := by rw [hc]
  rw [← hm] at he
  refine clbLegal_of_entries he fun hh => ?_
  obtain ⟨r, rest, hr⟩ := List.exists_cons_of_ne_nil hh
  exact he.full (hn r rest hr)

/-- At a station reset no more than the SENDING head stays, unmarked. -/
theorem stationReset_legal {c : Clb} (h : c.Legal) : c.stationReset.Legal := by
  have hle : (c.entries.filter fun e => e.sending).length ≤ 1 := by
    cases hc : c.entries with
    | nil => simp
    | cons e rest =>
      have hr : rest.filter (fun e => e.sending) = [] := List.filter_eq_nil_iff.mpr fun e' he' => by
        have := h.sending e' (by rw [hc]; exact he')
        simp [this]
      rw [List.filter_cons, hr]
      split <;> simp
  have hopen : openKeys c.stationReset.entries = [] := by
    rw [List.eq_nil_iff_forall_not_mem]
    intro k hk
    obtain ⟨e, he, hs, -⟩ := mem_openKeys.mp hk
    simp only [Clb.stationReset, List.mem_map, List.mem_filter] at he
    obtain ⟨e', ⟨-, hs'⟩, rfl⟩ := he
    rw [Entry.orphaned, hs'] at hs
    exact absurd hs (by simp)
  refine ⟨?_, by rw [hopen]; exact List.nodup_nil, ?_, fun hn => absurd rfl hn, ?_⟩
  · simp only [Clb.stationReset, List.length_map]
    exact hle.trans (by decide)
  · have : (c.stationReset.entries.tail) = [] := by
      rw [List.eq_nil_iff_length_eq_zero, List.length_tail]
      simp only [Clb.stationReset, List.length_map]
      omega
    rw [this]
    simp
  · have : c.stationReset.entries.filter Entry.marked = [] := List.filter_eq_nil_iff.mpr fun e he => by
      simp only [Clb.stationReset, List.mem_map] at he
      obtain ⟨e', -, rfl⟩ := he
      simp [Entry.orphaned, Entry.marked]
    rw [this]
    rfl

/-! ## Every step -/

theorem Move.clbLegal (h : Move s t) (hc : s.clb.Legal) : t.clb.Legal := by
  cases h with
  | bays t he _ hw => rw [he]; exact hc
  | finals b rs z _ hr hw => exact handOvers_legal hc
  | interim r st hf ht hk => exact collate_legal hc
  | send r tag w S ht hx hn hj =>
    unfold State.startExchange
    split
    · exact hc
    · rw [mapBays_clb]; exact hc
  | placing => exact placeHeld_legal hc.entries
  | batchEnd e rest he =>
    have hl : EntriesLegal rest (if e.marked then s.clb.markCount - 1 else s.clb.markCount) := by
      have := hc.entries
      rw [he] at this
      exact this.tail
    refine placeHeld_legal ?_
    rw [(reportEntry_frame (s := { s with clb := s.clb.freeHead e rest }) e).2.1]
    exact hl
  | batchTaken e rest he =>
    have hl := hc.entries
    rw [he] at hl
    have hkeys : openKeys (s.takenHead e rest :: rest) = openKeys rest := by
      simp [openKeys, State.takenHead]
    refine clbLegal_of_entries ⟨hl.count, ?_, hl.sending, ?_⟩ fun hh => ?_
    · exact hkeys.symm ▸ hl.keys.sublist openKeys_cons_subset
    · rw [hl.marks, List.filter_cons, List.filter_cons]
      have hm : (s.takenHead e rest).marked = e.marked := rfl
      rw [hm]
      split <;> rfl
    · have := hc.hold hh
      rw [he] at this
      exact this
  | entries f n hf hn =>
    refine clbLegal_of_entries (hc.entries.map (fun e => ?_) (hn hc)) fun hh => ?_
    · rw [hf e]; exact ⟨rfl, rfl, rfl⟩
    · exact (List.length_map _).trans (hc.hold hh)
  | batching o p h => exact clbLegal_congr hc rfl rfl rfl
  | blocksReset =>
    have he : s.blocksReset.clb = s.clb.stationReset := by simp [State.blocksReset]
    rw [he]
    exact stationReset_legal hc
  | raise b c d => rw [raiseFlag_clb]; exact hc
  | levels ls n => rw [reevaluate_frame.clb]; exact hc
  | noticeEnded b c =>
    unfold State.noticeEnded
    split <;> exact hc
  | cancelled | link | settings | clear | noticeTaken | log => exact hc

/-- Settles O7: each move keeps the buffer legal; a result finds no place only while all eight entries are
occupied, and a placement pass stops there. -/
theorem stepKeepsClbLegal : Obligations.StepKeepsClbLegal := by
  intro s t hs h
  refine step_keeps (P := fun s => s.clb.Legal) (fun s l h => h) (fun s t hm hc => hm.clbLegal hc)
    (fun s b _ hc => ?_) (fun p q s t h => ?_) hs h
  · rw [completeSeating_eq, raiseFlag_clb]; exact hc
  · rw [(powerOnReset_frame h).2.1]; exact clbLegal_reset

end Sys2Proof.Machine
end

section
/-! PROOF. The notice queue: insertion in order, raises, clearing and re-evaluation (R147 to R152, R154),
and the invariant that every step keeps. -/

namespace Sys2Proof.Machine

open Sys2Proof.Claims

variable {s t : State} {b b' : BayId} {c c' : AttClass} {d : ClassData} {x z : BayId × AttClass}
  {l : List (BayId × AttClass)}

/-! ## The order of the queue (R150) -/

/-- The entry of a flag stands before that of another, or level with it: a higher level, or the same level
and a raise position no later. -/
def State.NoticeLe (s : State) (x y : BayId × AttClass) : Prop :=
  s.level y.2 < s.level x.2
    ∨ (s.level x.2 = s.level y.2 ∧ (s.flag x.1 x.2).position ≤ (s.flag y.1 y.2).position)

theorem NoticeLe.trans {y : BayId × AttClass} (h : s.NoticeLe x y) (h' : s.NoticeLe y z) :
    s.NoticeLe x z := by
  unfold State.NoticeLe at *
  omega

theorem noticeLe_of_before (h : s.noticeBefore x z = true) : s.NoticeLe x z := by
  simp only [State.noticeBefore, Bool.or_eq_true, Bool.and_eq_true, decide_eq_true_eq] at h
  unfold State.NoticeLe
  omega

theorem noticeLe_of_not_before (h : ¬ s.noticeBefore x z = true) : s.NoticeLe z x := by
  simp only [State.noticeBefore, Bool.or_eq_true, Bool.and_eq_true, decide_eq_true_eq] at h
  unfold State.NoticeLe
  omega

/-- An insertion keeps the order. -/
theorem insertNotice_pairwise (h : l.Pairwise s.NoticeLe) :
    (s.insertNotice x l).Pairwise s.NoticeLe := by
  induction l with
  | nil => exact List.pairwise_singleton ..
  | cons y ys ih =>
    obtain ⟨hy, hys⟩ := List.pairwise_cons.mp h
    unfold State.insertNotice
    split
    · next hb =>
      refine List.pairwise_cons.mpr ⟨fun z hz => ?_, h⟩
      rcases List.mem_cons.mp hz with rfl | hz
      · exact noticeLe_of_before hb
      · exact NoticeLe.trans (noticeLe_of_before hb) (hy z hz)
    · next hb =>
      refine List.pairwise_cons.mpr ⟨fun z hz => ?_, ih hys⟩
      rcases mem_insertNotice.mp hz with rfl | hz
      · exact noticeLe_of_not_before hb
      · exact hy z hz

/-- Two states with the same levels and raise positions order notices alike. -/
structure SameOrder (s t : State) : Prop where
  levels    : t.atu.levels = s.atu.levels
  positions : ∀ b c, (t.flag b c).position = (s.flag b c).position

theorem SameOrder.level (h : SameOrder s t) (c : AttClass) : t.level c = s.level c := by
  unfold State.level; rw [h.levels]

theorem SameOrder.trans {u : State} (h : SameOrder s t) (h' : SameOrder t u) : SameOrder s u :=
  ⟨h'.levels.trans h.levels, fun b c => (h'.positions b c).trans (h.positions b c)⟩

theorem SameOrder.noticeLe (h : SameOrder s t) : t.NoticeLe = s.NoticeLe := by
  funext x y
  unfold State.NoticeLe
  rw [h.level, h.level, h.positions, h.positions]

theorem SameOrder.insertNotice (h : SameOrder s t) (x : BayId × AttClass)
    (l : List (BayId × AttClass)) : t.insertNotice x l = s.insertNotice x l := by
  induction l with
  | nil => rfl
  | cons y ys ih =>
    have hb : t.noticeBefore x y = s.noticeBefore x y := by
      unfold State.noticeBefore
      rw [h.level, h.level, h.positions, h.positions]
    simp only [State.insertNotice, hb, ih]

/-- Where an entry stands before another exactly by its higher level, it goes behind every entry of its own
level or a higher one. -/
theorem insertNotice_eq_filter
    (hb : ∀ y ∈ l, s.noticeBefore x y = decide (s.level y.2 < s.level x.2))
    (hl : l.Pairwise fun x y => s.level y.2 ≤ s.level x.2) :
    s.insertNotice x l = (l.filter fun y => decide (s.level x.2 ≤ s.level y.2)) ++ [x]
      ++ l.filter fun y => decide (s.level y.2 < s.level x.2) := by
  induction l with
  | nil => rfl
  | cons y ys ih =>
    obtain ⟨hy, hys⟩ := List.pairwise_cons.mp hl
    rw [State.insertNotice, hb y (List.mem_cons_self ..)]
    by_cases h : s.level y.2 < s.level x.2
    · have h1 : ys.filter (fun y => decide (s.level x.2 ≤ s.level y.2)) = [] :=
        List.filter_eq_nil_iff.mpr fun z hz => by
          have := hy z hz
          simp only [decide_eq_true_eq]
          omega
      have h2 : ys.filter (fun y => decide (s.level y.2 < s.level x.2)) = ys :=
        List.filter_eq_self.mpr fun z hz => by
          have := hy z hz
          simp only [decide_eq_true_eq]
          omega
      have h3 : ¬ s.level x.2 ≤ s.level y.2 := by omega
      simp [h, h1, h2, h3]
    · have h3 : s.level x.2 ≤ s.level y.2 := by omega
      simp [h, h3, ih (fun z hz => hb z (List.mem_cons_of_mem _ hz)) hys]

/-! ## Flags (R147) -/

theorem setFlag_flag {f : Flag} : (s.setFlag b c f).flag b' c'
    = if (b', c') = (b, c) then f else s.flag b' c' := by
  split
  · next h => cases h; exact setFlag_flag_same
  · next h => exact setFlag_flag_other h

@[simp] theorem setFlag_queue {f : Flag} : (s.setFlag b c f).atu.queue = s.atu.queue := rfl
@[simp] theorem setFlag_level {f : Flag} : (s.setFlag b c f).level c' = s.level c' := rfl

/-- The Attention Unit alone decides the invariant, and of a flag its state, place and queued mark. -/
theorem noticesLegal_congr (h : s.NoticesLegal)
    (hf : ∀ b c, (t.flag b c).state = (s.flag b c).state
      ∧ (t.flag b c).position = (s.flag b c).position ∧ (t.flag b c).queued = (s.flag b c).queued)
    (hq : t.atu.queue = s.atu.queue) (hl : t.atu.levels = s.atu.levels)
    (ht : t.atu.threshold = s.atu.threshold) (hn : t.atu.nextPosition = s.atu.nextPosition) :
    t.NoticesLegal := by
  have hlv : ∀ c, t.level c = s.level c := fun c => by unfold State.level; rw [hl]
  have hst : ∀ b c, (t.flag b c).state = (s.flag b c).state := fun b c => (hf b c).1
  have hpos : ∀ b c, (t.flag b c).position = (s.flag b c).position := fun b c => (hf b c).2.1
  have hqu : ∀ b c, (t.flag b c).queued = (s.flag b c).queued := fun b c => (hf b c).2.2
  obtain ⟨h1, h2, h3, h4, h5, h6, h7⟩ := h
  exact ⟨by rw [hq]; exact h1, by simpa only [hqu, hq] using h2, by simpa only [hst, hqu] using h3,
    by simpa only [hst, hqu, hlv, ht] using h4, by simpa only [hpos, hlv, hq] using h5,
    by simpa only [hst, hpos] using h6, by simpa only [hst, hpos, hn] using h7⟩

theorem noticesLegal_of_atu (h : s.NoticesLegal) (ha : t.atu = s.atu) : t.NoticesLegal :=
  noticesLegal_congr h (fun _ _ => by rw [flag_of_atu ha]; exact ⟨rfl, rfl, rfl⟩) (by rw [ha])
    (by rw [ha]) (by rw [ha]) (by rw [ha])

/-- The order of the queue follows from the order up to equal positions, since no two raised flags share
one. -/
theorem noticesLegal_of_le (h1 : s.atu.queue.Nodup)
    (h2 : ∀ b c, (s.flag b c).queued = true ↔ (b, c) ∈ s.atu.queue)
    (h3 : ∀ b c, (s.flag b c).queued = true → (s.flag b c).state = .raised)
    (h4 : ∀ b c, (s.flag b c).state = .raised →
      ((s.flag b c).queued = true ↔ 1 ≤ s.level c ∧ s.atu.threshold ≤ s.level c))
    (h5 : s.atu.queue.Pairwise s.NoticeLe)
    (h6 : ∀ b c b' c', (s.flag b c).state ≠ .clear → (s.flag b' c').state ≠ .clear →
      (s.flag b c).position = (s.flag b' c').position → (b, c) = (b', c'))
    (h7 : ∀ b c, (s.flag b c).state ≠ .clear → (s.flag b c).position < s.atu.nextPosition) :
    s.NoticesLegal := by
  have hraised (x) (hx : x ∈ s.atu.queue) : (s.flag x.1 x.2).state ≠ .clear := by
    rw [h3 x.1 x.2 ((h2 x.1 x.2).mpr hx)]; simp
  refine ⟨h1, h2, h3, h4, ?_, h6, h7⟩
  refine (h5.and h1).imp_of_mem fun {x y} hx hy ⟨hle, hne⟩ => ?_
  rcases hle with h | ⟨hl, hp⟩
  · exact .inl h
  · refine .inr ⟨hl, lt_of_le_of_ne hp fun he => hne ?_⟩
    exact h6 x.1 x.2 y.1 y.2 (hraised x hx) (hraised y hy) he

theorem State.NoticesLegal.le (h : s.NoticesLegal) : s.atu.queue.Pairwise s.NoticeLe :=
  h.order.imp fun ha => by unfold State.NoticeLe; omega

/-- A flag that changes while it stays in its state, its place and its queued mark. -/
theorem noticesLegal_setFlag_same {f : Flag} (h : s.NoticesLegal)
    (hf : f.state = (s.flag b c).state) (hp : f.position = (s.flag b c).position)
    (hq : f.queued = (s.flag b c).queued) : (s.setFlag b c f).NoticesLegal := by
  refine noticesLegal_congr h (fun b' c' => ?_) rfl rfl rfl rfl
  rw [setFlag_flag]
  split
  · next he => cases he; exact ⟨hf, hp, hq⟩
  · exact ⟨rfl, rfl, rfl⟩

/-! ## Raises (R148) -/

theorem raiseFlag_fresh_next (h : (s.flag b c).state = .clear) :
    (s.raiseFlag b c d).atu.nextPosition = s.atu.nextPosition + 1 := by
  simp only [State.raiseFlag, h, State.raiseFresh]
  split <;> rfl

theorem enqueueNotice_sameOrder : SameOrder s (s.enqueueNotice b c) := ⟨rfl, fun _ _ => rfl⟩

/-- The queue after a raise of a CLEAR flag. -/
theorem raiseFlag_fresh_queue (h : (s.flag b c).state = .clear) : (s.raiseFlag b c d).atu.queue
    = if s.qualifies c then (s.raiseFlag b c d).insertNotice (b, c) s.atu.queue
      else s.atu.queue := by
  simp only [State.raiseFlag, h, State.raiseFresh]
  split
  · exact (enqueueNotice_sameOrder.insertNotice _ _).symm
  · rfl

theorem qualifies_iff : s.qualifies c = true ↔ 1 ≤ s.level c ∧ s.atu.threshold ≤ s.level c := by
  simp [State.qualifies]

theorem raiseFlag_level : (s.raiseFlag b c d).level c' = s.level c' := by
  unfold State.level; rw [raiseFlag_settings.1]

/-- The flag that a raise of a CLEAR one leaves. -/
def State.freshFlag (s : State) (b : BayId) (c : AttClass) (d : ClassData) : Flag :=
  { state := .raised, count := 0, seating := (s.bay b).seating, data := d
    position := s.atu.nextPosition, queued := s.qualifies c }

theorem raiseFresh_noticesLegal (h : s.NoticesLegal) (hc : (s.flag b c).state = .clear) :
    (s.raiseFlag b c d).NoticesLegal := by
  have hfresh : (s.raiseFlag b c d).flag b c = s.freshFlag b c d := raiseFlag_flag_fresh hc
  have hnot : (b, c) ∉ s.atu.queue := fun hm => by
    rw [h.raised b c ((h.queued b c).mpr hm)] at hc; exact absurd hc (by simp)
  have hflag (b' c') : (s.raiseFlag b c d).flag b' c'
      = if (b', c') = (b, c) then s.freshFlag b c d else s.flag b' c' := by
    split
    · next he => cases he; exact hfresh
    · next he => exact raiseFlag_flag_other he
  have hlevel : ∀ c', (s.raiseFlag b c d).level c' = s.level c' := fun c' => raiseFlag_level
  have hold : s.atu.queue.Pairwise (s.raiseFlag b c d).NoticeLe := by
    refine h.le.imp_of_mem fun {x y} hx hy hle => ?_
    have hx' : (x.1, x.2) ≠ (b, c) := fun e => hnot (e ▸ hx)
    have hy' : (y.1, y.2) ≠ (b, c) := fun e => hnot (e ▸ hy)
    unfold State.NoticeLe
    rw [hlevel, hlevel, raiseFlag_flag_other hx', raiseFlag_flag_other hy']
    exact hle
  have hqueue := raiseFlag_fresh_queue (d := d) hc
  have hmem (x) : x ∈ (s.raiseFlag b c d).atu.queue
      ↔ (x = (b, c) ∧ s.qualifies c = true) ∨ x ∈ s.atu.queue := by
    rw [hqueue]
    split
    · next hq => simp [mem_insertNotice, hq]
    · next hq => simp [hq]
  apply noticesLegal_of_le
  · rw [hqueue]
    split
    · exact nodup_insertNotice h.once hnot
    · exact h.once
  · intro b' c'
    rw [hflag, hmem]
    split
    · next he => rw [he]; simp [hnot, State.freshFlag]
    · next he => simp [he, h.queued]
  · intro b' c'
    rw [hflag]
    split
    · exact fun _ => rfl
    · exact h.raised b' c'
  · intro b' c'
    rw [hflag, hlevel, raiseFlag_settings.2.1]
    split
    · next he => cases he; exact fun _ => qualifies_iff
    · exact h.qualified b' c'
  · rw [hqueue]
    split
    · exact insertNotice_pairwise hold
    · exact hold
  · intro b1 c1 b2 c2
    rw [hflag, hflag]
    split
    · next he =>
      split
      · next he' => exact fun _ _ _ => he.trans he'.symm
      · intro _ h2 hp
        exact absurd (h.positions b2 c2 h2) (by rw [← hp]; exact lt_irrefl _)
    · split
      · intro h1 _ hp
        exact absurd (h.positions b1 c1 h1) (by rw [hp]; exact lt_irrefl _)
      · exact h.distinct b1 c1 b2 c2
  · intro b' c'
    rw [hflag, raiseFlag_fresh_next hc]
    split
    · exact fun _ => Nat.lt_succ_self _
    · exact fun hs => Nat.lt_succ_of_lt (h.positions b' c' hs)

/-- All that a raise can change. -/
theorem raiseFlag_eq : s.raiseFlag b c d = { s with atu := { s.atu with
    flags := (s.raiseFlag b c d).atu.flags, queue := (s.raiseFlag b c d).atu.queue
    nextPosition := (s.raiseFlag b c d).atu.nextPosition } } := by
  unfold State.raiseFlag
  split
  · simp only [State.raiseFresh]
    split <;> rfl
  all_goals rfl

theorem raiseFlag_noticesLegal (h : s.NoticesLegal) : (s.raiseFlag b c d).NoticesLegal := by
  by_cases hc : (s.flag b c).state = .clear
  · exact raiseFresh_noticesLegal h hc
  · have ha : s.raiseFlag b c d = s.raiseAgain b c d := by
      unfold State.raiseFlag
      split
      · next hs => exact absurd hs hc
      all_goals rfl
    rw [ha]
    exact noticesLegal_setFlag_same h rfl rfl rfl

/-- Settles O50: a fresh entry has the latest raise position, so it stands before exactly the entries of a
lower level. -/
theorem freshRaiseIsQueuedIfItQualifies : Obligations.FreshRaiseIsQueuedIfItQualifies := by
  intro b c d s hc t q
  have hfresh : t.flag b c = _ := raiseFlag_flag_fresh (d := d) hc
  have hqueue := raiseFlag_fresh_queue (d := d) hc
  have hq : s.qualifies c = true ↔ q := qualifies_iff
  refine ⟨fun h => by rw [hfresh]; exact hq.mpr h, fun h => ?_, by rw [hfresh],
    raiseFlag_fresh_next hc, fun h => ?_, fun h hnot hpos hlev => ?_, fun b' c' => raiseFlag_flag_other,
    ?_⟩
  · rw [hfresh]
    exact Bool.eq_false_iff.mpr fun h' => h (hq.mp h')
  · exact hqueue.trans (if_neg fun h' => h (hq.mp h'))
  · have hlevel (c') : t.level c' = s.level c' := raiseFlag_level
    have hbefore : ∀ y ∈ s.atu.queue,
        t.noticeBefore (b, c) y = decide (t.level y.2 < t.level c) := fun y hy => by
      have hy' : (y.1, y.2) ≠ (b, c) := fun e => hnot (e ▸ hy)
      have hp : ¬ s.atu.nextPosition < (s.flag y.1 y.2).position := not_lt.mpr (hpos y hy).le
      have hfl : t.flag y.1 y.2 = s.flag y.1 y.2 := raiseFlag_flag_other hy'
      simp [State.noticeBefore, hfresh, hfl, hp]
    rw [hqueue, if_pos (hq.mpr h)]
    refine (insertNotice_eq_filter (s := t) hbefore (by simpa only [hlevel] using hlev)).trans ?_
    simp only [hlevel]
  · exact raiseFlag_eq

/-! ## Clearing, taking and the end of a notice (R151, R154) -/

theorem clearFlag_flag : (s.clearFlag b c).flag b' c'
    = if (b', c') = (b, c) then .cleared else s.flag b' c' := setFlag_flag

theorem clearFlag_queue : (s.clearFlag b c).atu.queue
    = s.atu.queue.filter fun x => decide (x ≠ (b, c)) := rfl

theorem clearFlag_noticesLegal (h : s.NoticesLegal) : (s.clearFlag b c).NoticesLegal := by
  have hmem (x) : x ∈ (s.clearFlag b c).atu.queue ↔ x ∈ s.atu.queue ∧ x ≠ (b, c) := by
    simp [clearFlag_queue]
  have hsub : (s.clearFlag b c).atu.queue.Sublist s.atu.queue := List.filter_sublist
  refine ⟨h.once.sublist hsub, fun b' c' => ?_, fun b' c' => ?_, fun b' c' => ?_, ?_,
    fun b1 c1 b2 c2 => ?_, fun b' c' => ?_⟩
  · rw [clearFlag_flag, hmem]
    split
    · next he => simp [he, Flag.cleared]
    · next he => simp [he, h.queued]
  · rw [clearFlag_flag]
    split
    · exact fun hq => absurd hq (by simp [Flag.cleared])
    · exact h.raised b' c'
  · rw [clearFlag_flag]
    split
    · exact fun hs => absurd hs (by simp [Flag.cleared])
    · exact h.qualified b' c'
  · refine (h.order.sublist hsub).imp_of_mem fun {x y} hx hy ho => ?_
    have hx' : ¬ (x.1, x.2) = (b, c) := ((hmem x).mp hx).2
    have hy' : ¬ (y.1, y.2) = (b, c) := ((hmem y).mp hy).2
    rw [clearFlag_flag, clearFlag_flag, if_neg hx', if_neg hy']
    exact ho
  · rw [clearFlag_flag, clearFlag_flag]
    split
    · exact fun hs => absurd rfl hs
    · split
      · exact fun _ hs => absurd rfl hs
      · exact h.distinct b1 c1 b2 c2
  · rw [clearFlag_flag]
    split
    · exact fun hs => absurd rfl hs
    · exact h.positions b' c'

theorem noticeTaken_flag {rest : List (BayId × AttClass)} : (s.noticeTaken b c rest).flag b' c'
    = if (b', c') = (b, c) then { s.flag b c with state := .notifying, queued := false }
      else s.flag b' c' := setFlag_flag

theorem noticeTaken_noticesLegal {rest : List (BayId × AttClass)} (h : s.NoticesLegal)
    (hq : s.atu.queue = (b, c) :: rest) : (s.noticeTaken b c rest).NoticesLegal := by
  have hsub : rest.Sublist s.atu.queue := by rw [hq]; exact List.sublist_cons_self ..
  have hnot : (b, c) ∉ rest := (List.nodup_cons.mp (hq ▸ h.once)).1
  have hpos (b' c') : ((s.noticeTaken b c rest).flag b' c').position = (s.flag b' c').position := by
    rw [noticeTaken_flag]
    split
    · next he => cases he; rfl
    · rfl
  have hclear (b' c') (hs : ((s.noticeTaken b c rest).flag b' c').state ≠ .clear) :
      (s.flag b' c').state ≠ .clear := by
    rw [noticeTaken_flag] at hs
    split at hs
    · next he =>
      cases he
      have hm : (b, c) ∈ s.atu.queue := by rw [hq]; exact List.mem_cons_self ..
      rw [h.raised b c ((h.queued b c).mpr hm)]
      simp
    · exact hs
  refine ⟨h.once.sublist hsub, fun b' c' => ?_, fun b' c' => ?_, fun b' c' => ?_, ?_,
    fun b1 c1 b2 c2 h1 h2 => ?_, fun b' c' hs => ?_⟩
  · rw [noticeTaken_flag]
    change _ ↔ (b', c') ∈ rest
    split
    · next he => rw [he]; simp [hnot]
    · next he => rw [h.queued, hq]; simp [he]
  · rw [noticeTaken_flag]
    split
    · exact fun hq => absurd hq (by simp)
    · exact h.raised b' c'
  · rw [noticeTaken_flag]
    split
    · exact fun hs => absurd hs (by simp)
    · exact h.qualified b' c'
  · simp only [hpos]
    exact h.order.sublist hsub
  · rw [hpos, hpos]
    exact h.distinct b1 c1 b2 c2 (hclear b1 c1 h1) (hclear b2 c2 h2)
  · rw [hpos]
    exact h.positions b' c' (hclear b' c' hs)

theorem noticeEnded_noticesLegal (h : s.NoticesLegal) : (s.noticeEnded b c).NoticesLegal := by
  unfold State.noticeEnded
  split
  · next hs =>
    have hq : (s.flag b c).queued = false := Bool.eq_false_iff.mpr fun hq => by
      rw [h.raised b c hq] at hs; exact absurd hs (by simp)
    have hf (b' c') : (s.setFlag b c { s.flag b c with state := .notified }).flag b' c'
        = if (b', c') = (b, c) then { s.flag b c with state := .notified } else s.flag b' c' :=
      setFlag_flag
    have hpos (b' c') : ((s.setFlag b c { s.flag b c with state := .notified }).flag b' c').position
        = (s.flag b' c').position := by
      rw [hf]; split
      · next he => cases he; rfl
      · rfl
    have hqu (b' c') : ((s.setFlag b c { s.flag b c with state := .notified }).flag b' c').queued
        = (s.flag b' c').queued := by
      rw [hf]; split
      · next he => cases he; rfl
      · rfl
    have hclear (b' c')
        (hn : ((s.setFlag b c { s.flag b c with state := .notified }).flag b' c').state ≠ .clear) :
        (s.flag b' c').state ≠ .clear := by
      rw [hf] at hn
      split at hn
      · next he => cases he; rw [hs]; simp
      · exact hn
    refine ⟨h.once, fun b' c' => by rw [hqu]; exact h.queued b' c', fun b' c' hn => ?_,
      fun b' c' hn => ?_, by simp only [hpos]; exact h.order, fun b1 c1 b2 c2 h1 h2 => ?_,
      fun b' c' hn => by rw [hpos]; exact h.positions b' c' (hclear b' c' hn)⟩
    · rw [hqu] at hn
      have hne : ¬ (b', c') = (b, c) := fun he => by cases he; rw [hq] at hn; simp at hn
      rw [hf, if_neg hne]
      exact h.raised b' c' hn
    · rw [hqu]
      have hne : ¬ (b', c') = (b, c) := fun he => by
        rw [hf, if_pos he] at hn; exact absurd hn (by simp)
      rw [hf, if_neg hne] at hn
      exact h.qualified b' c' hn
    · rw [hpos, hpos]
      exact h.distinct b1 c1 b2 c2 (hclear b1 c1 h1) (hclear b2 c2 h2)
  all_goals exact h

/-! ## Re-evaluation (R152) -/

/-- The flag of (b, c) is RAISED and its class qualifies. -/
def State.wants (s : State) (x : BayId × AttClass) : Bool :=
  decide ((s.flag x.1 x.2).state = .raised) && s.qualifies x.2

theorem reevaluateFlag_raised (h : (s.flag x.1 x.2).state = .raised) : s.reevaluateFlag x
    = if s.qualifies x.2 then
        (s.setFlag x.1 x.2 { s.flag x.1 x.2 with queued := s.qualifies x.2 }).enqueueNotice x.1 x.2
      else s.setFlag x.1 x.2 { s.flag x.1 x.2 with queued := s.qualifies x.2 } := by
  unfold State.reevaluateFlag
  simp only
  split
  · rfl
  all_goals
    next hs => rw [h] at hs; exact absurd hs (by simp)

theorem reevaluateFlag_other (h : (s.flag x.1 x.2).state ≠ .raised) : s.reevaluateFlag x = s := by
  unfold State.reevaluateFlag
  simp only
  split
  · next hs => exact absurd hs h
  all_goals rfl

theorem setFlag_sameOrder {f : Flag} (hf : f.position = (s.flag b c).position) :
    SameOrder s (s.setFlag b c f) := by
  refine ⟨rfl, fun b' c' => ?_⟩
  rw [setFlag_flag]
  split
  · next he => cases he; exact hf
  · rfl

theorem reevaluateFlag_queue : (s.reevaluateFlag x).atu.queue
    = if s.wants x then s.insertNotice x s.atu.queue else s.atu.queue := by
  by_cases hs : (s.flag x.1 x.2).state = .raised
  · rw [reevaluateFlag_raised hs, State.wants, decide_eq_true hs, Bool.true_and]
    split
    · exact (setFlag_sameOrder (s := s) (b := x.1) (c := x.2)
        (f := { s.flag x.1 x.2 with queued := s.qualifies x.2 }) rfl).insertNotice x s.atu.queue
    · rfl
  · rw [reevaluateFlag_other hs, State.wants, decide_eq_false hs]
    rfl

theorem reevaluateFlag_flag : (s.reevaluateFlag x).flag b c
    = if (b, c) = x ∧ (s.flag b c).state = .raised then
        { s.flag b c with queued := s.qualifies c } else s.flag b c := by
  by_cases hs : (s.flag x.1 x.2).state = .raised
  · have hflag : (s.reevaluateFlag x).flag b c = if (b, c) = (x.1, x.2) then
        { s.flag x.1 x.2 with queued := s.qualifies x.2 } else s.flag b c := by
      rw [reevaluateFlag_raised hs]
      split
      · exact setFlag_flag
      · exact setFlag_flag
    rw [hflag]
    by_cases he : (b, c) = x
    · subst he
      rw [if_pos rfl, if_pos ⟨rfl, hs⟩]
    · rw [if_neg he, if_neg fun h => he h.1]
  · rw [reevaluateFlag_other hs, if_neg]
    rintro ⟨rfl, h⟩
    exact hs h

theorem reevaluateFlag_sameOrder : SameOrder s (s.reevaluateFlag x) := by
  refine ⟨(reevaluateFlag_same x).levels, fun b c => ?_⟩
  rw [reevaluateFlag_flag]
  split <;> rfl

theorem reevaluateFlag_qualifies : (s.reevaluateFlag x).qualifies c = s.qualifies c := by
  unfold State.qualifies State.level
  rw [(reevaluateFlag_same x).levels, (reevaluateFlag_same x).threshold]

theorem reevaluateFlag_state : ((s.reevaluateFlag x).flag b c).state = (s.flag b c).state := by
  rw [reevaluateFlag_flag]
  split <;> rfl

theorem reevaluateFlag_wants : (s.reevaluateFlag x).wants z = s.wants z := by
  unfold State.wants
  rw [reevaluateFlag_state, reevaluateFlag_qualifies]

/-- What the re-evaluation of some flags leaves: each RAISED one's queued mark set as it qualifies, and the
queue with the entries of those that do, in order. -/
theorem reevaluateFlags_spec (l : List (BayId × AttClass)) (v : State) :
    (∀ b c, (l.foldl State.reevaluateFlag v).flag b c
      = if (b, c) ∈ l ∧ (v.flag b c).state = .raised then
          { v.flag b c with queued := v.qualifies c } else v.flag b c)
    ∧ (∀ x, x ∈ (l.foldl State.reevaluateFlag v).atu.queue
        ↔ x ∈ v.atu.queue ∨ (x ∈ l ∧ v.wants x = true))
    ∧ (v.atu.queue.Pairwise v.NoticeLe →
        (l.foldl State.reevaluateFlag v).atu.queue.Pairwise v.NoticeLe)
    ∧ (l.Nodup → v.atu.queue.Nodup → (∀ x ∈ l, x ∉ v.atu.queue) →
        (l.foldl State.reevaluateFlag v).atu.queue.Nodup) := by
  induction l generalizing v with
  | nil => simp
  | cons x l ih =>
    obtain ⟨i1, i2, i3, i4⟩ := ih (v.reevaluateFlag x)
    have hmem (z) : z ∈ (v.reevaluateFlag x).atu.queue ↔ z ∈ v.atu.queue ∨ (z = x ∧ v.wants x = true) := by
      rw [reevaluateFlag_queue]
      split
      · next h => rw [mem_insertNotice, h]; tauto
      · next h => simp [h]
    rw [List.foldl_cons]
    refine ⟨fun b c => ?_, fun z => ?_, fun h => ?_, fun hl hq hd => ?_⟩
    · rw [i1, reevaluateFlag_state, reevaluateFlag_flag, reevaluateFlag_qualifies]
      by_cases hx : (b, c) = x <;> by_cases hl : (b, c) ∈ l <;>
        by_cases hs : (v.flag b c).state = .raised <;> simp [hx, hl, hs]
    · rw [i2, hmem, reevaluateFlag_wants, List.mem_cons]
      constructor
      · rintro ((h | ⟨rfl, h⟩) | ⟨h, h'⟩)
        · exact .inl h
        · exact .inr ⟨.inl rfl, h⟩
        · exact .inr ⟨.inr h, h'⟩
      · rintro (h | ⟨rfl | h, h'⟩)
        · exact .inl (.inl h)
        · exact .inl (.inr ⟨rfl, h'⟩)
        · exact .inr ⟨h, h'⟩
    · rw [← (reevaluateFlag_sameOrder (s := v) (x := x)).noticeLe]
      apply i3
      rw [reevaluateFlag_sameOrder.noticeLe, reevaluateFlag_queue]
      split
      · exact insertNotice_pairwise h
      · exact h
    · obtain ⟨hx, hl⟩ := List.nodup_cons.mp hl
      refine i4 hl ?_ fun z hz hm => ?_
      · rw [reevaluateFlag_queue]
        split
        · exact nodup_insertNotice hq (hd x (List.mem_cons_self ..))
        · exact hq
      · rcases (hmem z).mp hm with hm | ⟨rfl, -⟩
        · exact hd z (List.mem_cons_of_mem _ hz) hm
        · exact hx hz

theorem allFlags_nodup : allFlags.Nodup := by
  refine List.nodup_flatMap.mpr ⟨fun b _ => ?_, ?_⟩
  · exact List.Nodup.map (fun c c' h => (Prod.mk.injEq .. ▸ h : _ ∧ _).2) (by decide)
  · refine (List.nodup_finRange 24).imp fun {b b'} hne => ?_
    intro x hx hx'
    simp only [List.mem_map] at hx hx'
    obtain ⟨c, -, rfl⟩ := hx
    obtain ⟨c', -, h⟩ := hx'
    exact hne (congrArg Prod.fst h).symm

/-- A re-evaluation, flag by flag and entry by entry. -/
theorem reevaluate_spec (s : State) :
    (∀ b c, s.reevaluate.flag b c = if (s.flag b c).state = .raised then
        { s.flag b c with queued := s.qualifies c } else s.flag b c)
    ∧ (∀ x, x ∈ s.reevaluate.atu.queue ↔ s.wants x = true)
    ∧ s.reevaluate.atu.queue.Pairwise s.NoticeLe
    ∧ s.reevaluate.atu.queue.Nodup := by
  have hmem (x : BayId × AttClass) : x ∈ allFlags := mem_allFlags x.1 x.2
  have hnodup := allFlags_nodup
  unfold State.reevaluate
  generalize allFlags = l at hmem hnodup
  have hle : ({ s with atu := { s.atu with queue := [] } } : State).NoticeLe = s.NoticeLe :=
    SameOrder.noticeLe ⟨rfl, fun _ _ => rfl⟩
  obtain ⟨h1, h2, h3, h4⟩ := reevaluateFlags_spec l { s with atu := { s.atu with queue := [] } }
  refine ⟨fun b c => ?_, fun x => ?_, hle ▸ h3 List.Pairwise.nil,
    h4 hnodup List.nodup_nil fun _ _ => List.not_mem_nil⟩
  · rw [h1]
    by_cases hr : (s.flag b c).state = .raised
    · rw [if_pos hr]
      exact if_pos ⟨hmem (b, c), hr⟩
    · rw [if_neg hr]
      exact if_neg fun h => hr h.2
  · rw [h2]
    simp only [List.not_mem_nil, hmem x, true_and, false_or]
    rfl

theorem levels_noticesLegal (ls : Vector Nat 9) (n : Nat) (h : s.NoticesLegal) :
    ({ s with atu := { s.atu with levels := ls, threshold := n } } : State).reevaluate.NoticesLegal := by
  have hfl (b c) : ({ s with atu := { s.atu with levels := ls, threshold := n } } : State).flag b c
      = s.flag b c := rfl
  have hnx : ({ s with atu := { s.atu with levels := ls, threshold := n } } : State).atu.nextPosition
      = s.atu.nextPosition := rfl
  generalize ({ s with atu := { s.atu with levels := ls, threshold := n } } : State) = v at hfl hnx
  obtain ⟨h1, h2, h3, h4⟩ := reevaluate_spec v
  have hsame := reevaluate_same (s := v)
  have hst (b c) : (v.reevaluate.flag b c).state = (s.flag b c).state := by
    rw [h1, hfl]; split <;> rfl
  have hpos (b c) : (v.reevaluate.flag b c).position = (s.flag b c).position := by
    rw [h1, hfl]; split <;> rfl
  have hq (b c) (hr : (s.flag b c).state = .raised) :
      (v.reevaluate.flag b c).queued = v.qualifies c := by rw [h1, hfl, if_pos hr]
  have hnq (b c) (hr : (s.flag b c).state ≠ .raised) :
      (v.reevaluate.flag b c).queued = false := by
    rw [h1, hfl, if_neg hr]
    exact Bool.eq_false_iff.mpr fun hq => hr (h.raised b c hq)
  have hlevel (c) : v.reevaluate.level c = v.level c := by
    unfold State.level; rw [hsame.levels]
  have hle : v.reevaluate.NoticeLe = v.NoticeLe :=
    SameOrder.noticeLe ⟨hsame.levels, fun b c => by rw [hpos, hfl]⟩
  apply noticesLegal_of_le
  · exact h4
  · intro b c
    rw [h2, State.wants, hfl]
    by_cases hr : (s.flag b c).state = .raised
    · rw [hq b c hr]; simp [hr]
    · rw [hnq b c hr]; simp [hr]
  · intro b c hq'
    rw [hst]
    by_contra hr
    rw [hnq b c hr] at hq'
    exact absurd hq' (by simp)
  · intro b c hr
    rw [hst] at hr
    rw [hq b c hr, hlevel, hsame.threshold]
    exact qualifies_iff
  · rw [hle]; exact h3
  · intro b c b' c'
    rw [hst, hst, hpos, hpos]
    exact h.distinct b c b' c'
  · intro b c
    rw [hst, hpos, hsame.next, hnx]
    exact h.positions b c

/-! ## Every step -/

theorem atu_stationReset_flag (h : t.atu = s.atu.stationReset) (b : BayId) (c : AttClass) :
    t.flag b c = .cleared := by
  simp [State.flag, h, Atu.stationReset, Atu.reset, Vector.get_eq_getElem]

theorem Move.noticesLegal (h : Move s t) (hn : s.NoticesLegal) : t.NoticesLegal := by
  cases h with
  | bays t he _ hw => rw [he]; exact noticesLegal_of_atu hn rfl
  | finals b rs z _ hr hw => rw [handOvers_eq]; exact noticesLegal_of_atu hn rfl
  | interim r st hf ht hk => rw [collate_eq]; exact noticesLegal_of_atu hn rfl
  | send r tag w S ht hx hl hj =>
    unfold State.startExchange
    split
    · exact hn
    · exact noticesLegal_of_atu hn (by simp)
  | placing => exact noticesLegal_of_atu hn placeHeld_same.2
  | batchEnd e rest he =>
    obtain ⟨-, -, -, h1, -, -, -⟩ := reportEntry_frame (s := { s with clb := s.clb.freeHead e rest }) e
    exact noticesLegal_of_atu hn (placeHeld_same.2.trans h1)
  | blocksReset =>
    have ha : s.blocksReset.atu = s.atu.stationReset := by simp [State.blocksReset]
    refine noticesLegal_of_clear (by rw [ha]; rfl) fun b c => ?_
    rw [atu_stationReset_flag ha]
    exact ⟨rfl, rfl⟩
  | raise b c d => exact raiseFlag_noticesLegal hn
  | clear b c => exact clearFlag_noticesLegal hn
  | levels ls n => exact levels_noticesLegal ls n hn
  | noticeTaken b c rest hq => exact noticeTaken_noticesLegal hn hq
  | noticeEnded b c => exact noticeEnded_noticesLegal hn
  | log ring dropped _ =>
    exact noticesLegal_congr hn (fun _ _ => ⟨rfl, rfl, rfl⟩) rfl rfl rfl rfl
  | cancelled | batchTaken | entries | batching | link | settings =>
    exact noticesLegal_of_atu hn rfl

/-- Settles O8: each move that touches the Attention Unit keeps the queue in agreement with the flags and in
order. -/
theorem stepKeepsNoticesLegal : Obligations.StepKeepsNoticesLegal := by
  intro s t hs h
  refine step_keeps (P := State.NoticesLegal) (fun s l h => noticesLegal_of_atu h rfl)
    (fun s t hm hn => hm.noticesLegal hn) (fun s b _ hn => ?_) (fun p q s t h => ?_) hs h
  · rw [completeSeating_eq]
    exact raiseFlag_noticesLegal (noticesLegal_of_atu hn (modBay_atu))
  · obtain ⟨-, -, ha, -⟩ := powerOnReset_frame h
    refine noticesLegal_of_clear (by rw [ha]; rfl) fun b c => ?_
    rw [flag_of_atu (s := State.reset) ha, reset_flag]
    exact ⟨rfl, rfl⟩

end Sys2Proof.Machine
end

section
/-! PROOF. Where the finals of an exchange wait: their number in the entries and the hold queue under the
placing of a result (Table 8.2), and what the entries and held results say of their exchanges. -/

namespace Sys2Proof.Machine

open Sys2Proof.Claims

variable {s t : State} {b : BayId} {e : Entry} {es es' : List Entry} {n : Nat} {r : Result} {u : Tag}
  {rs : List Result}

/-! ## Finals in the entries and in the hold queue -/

/-- The entries that hold a final of an exchange from a bay, but for those that a station reset dropped. -/
def finalsIn (es : List Entry) (u : Tag) (b : BayId) : Nat :=
  (es.filter fun e => !e.dropped && decide (e.tag = u) && e.hasFinal b).length

/-- The held results of an exchange from a bay. -/
def heldOf (rs : List Result) (u : Tag) (b : BayId) : Nat :=
  (rs.filter fun r => decide (r.tag = u) && decide (r.bay = b)).length

theorem finalsAt_eq : s.finalsAt u b = finalsIn s.clb.entries u b + heldOf s.clb.hold u b := rfl

theorem finalsIn_cons : finalsIn (e :: es) u b
    = (if e.dropped = false ∧ e.tag = u ∧ e.hasFinal b = true then 1 else 0) + finalsIn es u b := by
  unfold finalsIn
  rw [List.filter_cons]
  by_cases h1 : e.dropped <;> by_cases h2 : e.tag = u <;> by_cases h3 : e.hasFinal b <;>
    simp [h1, h2, h3, Nat.add_comm]

theorem finalsIn_append : finalsIn (es ++ es') u b = finalsIn es u b + finalsIn es' u b := by
  simp [finalsIn]

theorem heldOf_append {qs : List Result} : heldOf (rs ++ qs) u b = heldOf rs u b + heldOf qs u b := by
  simp [heldOf]

theorem heldOf_cons : heldOf (r :: rs) u b
    = (if r.tag = u ∧ r.bay = b then 1 else 0) + heldOf rs u b := by
  unfold heldOf
  rw [List.filter_cons]
  by_cases h1 : r.tag = u <;> by_cases h2 : r.bay = b <;> simp [h1, h2, Nat.add_comm]

/-- A map of the entries that keeps what counts keeps the number of finals. -/
theorem finalsIn_map {f : Entry → Entry}
    (hf : ∀ e ∈ es, (f e).dropped = e.dropped ∧ (f e).tag = e.tag
      ∧ (e.tag = u → e.dropped = false → (f e).hasFinal b = e.hasFinal b)) :
    finalsIn (es.map f) u b = finalsIn es u b := by
  unfold finalsIn
  rw [List.filter_map, List.length_map]
  congr 1
  refine List.filter_congr fun e he => ?_
  obtain ⟨h1, h2, h3⟩ := hf e he
  simp only [Function.comp, h1, h2]
  by_cases ht : e.tag = u <;> cases hd : e.dropped <;> simp [ht, h3, hd]

/-! ## A merge (R128) -/

theorem hasFinal_merge : (e.merge r).hasFinal b
    = if slotOf b = slotOf r.bay then decide (boardOf b = e.board) && decide (r.kind = .final)
      else e.hasFinal b := by
  unfold Entry.hasFinal Entry.merge
  by_cases h : slotOf b = slotOf r.bay
  · simp [h, Vector.get_eq_getElem, slotFinal]
  · have hv : (slotOf r.bay).val ≠ (slotOf b).val := fun hv => h (Fin.ext hv.symm)
    simp [h, Vector.get_eq_getElem, hv]

theorem takes_iff : e.takes u k = true ↔ e.tag = u ∧ e.board = k ∧ e.sending = false := by
  simp [Entry.takes, and_assoc]

/-- A merge changes nothing for another bay. -/
theorem hasFinal_merge_other (ht : e.takes r.tag (boardOf r.bay) = true) (hb : b ≠ r.bay) :
    (e.merge r).hasFinal b = e.hasFinal b := by
  obtain ⟨-, hboard, -⟩ := takes_iff.mp ht
  rw [hasFinal_merge]
  split
  · next hs =>
    have hne : ¬ boardOf b = e.board := fun h => hb (bay_of_board_slot (h.trans hboard) hs)
    simp [Entry.hasFinal, hne]
  · rfl

theorem hasFinal_merge_same (ht : e.takes r.tag (boardOf r.bay) = true) :
    (e.merge r).hasFinal r.bay = decide (r.kind = .final) := by
  obtain ⟨-, hboard, -⟩ := takes_iff.mp ht
  rw [hasFinal_merge, if_pos rfl]
  simp [hboard]

theorem hasFinal_openedWith : (Entry.openedWith r).hasFinal b
    = (decide (b = r.bay) && decide (r.kind = .final)) := by
  unfold Entry.openedWith Entry.hasFinal
  by_cases hb : b = r.bay
  · subst hb; simp [Vector.get_eq_getElem, slotFinal]
  · by_cases hs : slotOf b = slotOf r.bay
    · have hne : ¬ boardOf b = boardOf r.bay := fun h => hb (bay_of_board_slot h hs)
      simp [hb, hne]
    · have hv : (slotOf r.bay).val ≠ (slotOf b).val := fun hv => hs (Fin.ext hv.symm)
      simp [hb, Vector.get_eq_getElem, hv, slotFinal]

/-- Exactly one entry takes a result that some entry takes. -/
theorem takers_length (hl : EntriesLegal es n)
    (hex : ∃ e ∈ es, e.takes r.tag (boardOf r.bay) = true) :
    (es.filter fun e => e.takes r.tag (boardOf r.bay)).length = 1 := by
  have hcount : (openKeys es).count (r.tag, boardOf r.bay)
      = (es.filter fun e => e.takes r.tag (boardOf r.bay)).length := by
    rw [openKeys, List.count, List.countP_map, List.countP_filter, List.countP_eq_length_filter]
    refine congrArg List.length (List.filter_congr fun e _ => ?_)
    simp [Entry.takes, beq_eq_decide, Prod.ext_iff, Bool.decide_and]
  have hle := List.nodup_iff_count_le_one.mp hl.keys (r.tag, boardOf r.bay)
  obtain ⟨e, he, ht⟩ := hex
  have hpos : 0 < (es.filter fun e => e.takes r.tag (boardOf r.bay)).length :=
    List.length_pos_of_mem (List.mem_filter.mpr ⟨he, ht⟩)
  omega

/-- The placing of a result whose exchange has no final from its bay in the entries adds one if it is a
final. -/
theorem finalsIn_placed (hl : EntriesLegal es n)
    (hs : ∀ e ∈ es, e.dropped = true → e.sending = true) (hp : placeIn r es = some es')
    (h0 : finalsIn es r.tag r.bay = 0) (u : Tag) (b : BayId) : finalsIn es' u b
      = finalsIn es u b + if r.kind = .final ∧ r.tag = u ∧ r.bay = b then 1 else 0 := by
  obtain ⟨hex, hm⟩ | ⟨-, -, ho⟩ | ⟨-, -, hn⟩ := placeIn_cases (r := r) (es := es)
  · rw [hm] at hp
    cases hp
    by_cases hub : r.tag = u ∧ r.bay = b
    · obtain ⟨rfl, rfl⟩ := hub
      have hnone : ∀ e ∈ es, e.dropped = false → e.tag = r.tag → e.hasFinal r.bay = false :=
        fun e he hd ht => Bool.eq_false_iff.mpr fun hf => by
          have := List.filter_eq_nil_iff.mp (List.eq_nil_of_length_eq_zero h0) e he
          simp [hd, ht, hf] at this
      have hcount : finalsIn (mergeInto r es) r.tag r.bay
          = ((es.filter fun e => e.takes r.tag (boardOf r.bay)).filter
              fun _ => decide (r.kind = .final)).length := by
        unfold finalsIn mergeInto
        rw [List.filter_map, List.length_map, List.filter_filter]
        congr 1
        refine List.filter_congr fun e he => ?_
        simp only [Function.comp]
        by_cases ht : e.takes r.tag (boardOf r.bay) = true
        · obtain ⟨htag, -, hsend⟩ := takes_iff.mp ht
          have hd : e.dropped = false := Bool.eq_false_iff.mpr fun hd => by
            rw [hs e he hd] at hsend; exact absurd hsend (by simp)
          simp only [if_pos ht, hasFinal_merge_same ht]
          simp [Entry.merge, hd, htag, ht]
        · simp only [if_neg ht]
          cases hd : e.dropped
          · by_cases htag : e.tag = r.tag
            · simp [hnone e he hd htag, ht]
            · simp [htag, ht]
          · simp [ht]
      rw [hcount, h0]
      by_cases hk : r.kind = .final
      · simp [hk, takers_length hl hex]
      · simp [hk]
    · rw [if_neg fun h => hub h.2, Nat.add_zero]
      refine finalsIn_map fun e he => ?_
      split
      · next ht =>
        refine ⟨rfl, rfl, fun htag _ => hasFinal_merge_other ht fun hb => hub ⟨?_, hb.symm⟩⟩
        exact (takes_iff.mp ht).1.symm.trans htag
      · exact ⟨rfl, rfl, fun _ _ => rfl⟩
  · rw [ho] at hp
    cases hp
    rw [finalsIn_append, finalsIn_cons, hasFinal_openedWith]
    have hz : finalsIn [] u b = 0 := rfl
    rw [hz]
    by_cases h2 : b = r.bay
    · subst h2
      by_cases h1 : r.tag = u <;> by_cases h3 : r.kind = .final <;>
        simp [Entry.openedWith, h1, h3]
    · simp [Entry.openedWith, h2, Ne.symm h2]
  · rw [hn] at hp
    exact absurd hp (by simp)

/-! ## Entries and held results belong to records -/

/-- What AccountsLegal says of the entries and the hold queue beside the numbers: `known` tells the tags of
the records, `pend` the pending sets. -/
structure Filed (es : List Entry) (hold : List Result) (known : Tag → Bool)
    (pend : Tag → BayId → Bool) : Prop where
  homes   : ∀ e ∈ es, e.dropped = false → known e.tag = true
  held    : ∀ r ∈ hold, r.kind = .final ∧ known r.tag = true
  sending : ∀ e ∈ es, e.finalMark = true ∨ e.dropped = true → e.sending = true
  last    : ∀ e rest, es = e :: rest → e.finalMark = true → e.dropped = false →
              (∀ b, pend e.tag b = false) ∧ (∀ e' ∈ rest, e'.tag ≠ e.tag) ∧ ∀ r ∈ hold, r.tag ≠ e.tag

theorem Filed.mono {hold : List Result} {known known' : Tag → Bool} {pend pend' : Tag → BayId → Bool}
    (h : Filed es hold known pend) (hk : ∀ u, known u = true → known' u = true)
    (hp : ∀ u b, pend' u b = true → pend u b = true) : Filed es hold known' pend' :=
  ⟨fun e he hd => hk _ (h.homes e he hd), fun r hr => ⟨(h.held r hr).1, hk _ (h.held r hr).2⟩,
    h.sending, fun e rest he hm hd => by
      obtain ⟨h1, h2, h3⟩ := h.last e rest he hm hd
      exact ⟨fun b => Bool.eq_false_iff.mpr fun hb => by
        have := hp _ _ hb; rw [h1 b] at this; exact absurd this (by simp), h2, h3⟩⟩

/-- A map that keeps what the records need. -/
theorem Filed.map {hold : List Result} {known : Tag → Bool} {pend : Tag → BayId → Bool}
    {f : Entry → Entry} (h : Filed es hold known pend)
    (hf : ∀ e, (f e).tag = e.tag ∧ (f e).sending = e.sending ∧ (f e).finalMark = e.finalMark
      ∧ (f e).dropped = e.dropped) : Filed (es.map f) hold known pend := by
  refine ⟨fun e he hd => ?_, h.held, fun e he hm => ?_, fun e rest he hm hd => ?_⟩
  · obtain ⟨e', he', rfl⟩ := List.mem_map.mp he
    obtain ⟨h1, -, -, h4⟩ := hf e'
    rw [h1]
    exact h.homes e' he' (h4.symm.trans hd)
  · obtain ⟨e', he', rfl⟩ := List.mem_map.mp he
    obtain ⟨-, h2, h3, h4⟩ := hf e'
    rw [h3, h4] at hm
    rw [h2]
    exact h.sending e' he' hm
  · obtain ⟨e', rest', hes, rfl, rfl⟩ := List.map_eq_cons_iff.mp he
    obtain ⟨h1, -, h3, h4⟩ := hf e'
    obtain ⟨g1, g2, g3⟩ := h.last e' rest' hes (h3.symm.trans hm) (h4.symm.trans hd)
    rw [h1]
    refine ⟨g1, fun q hq => ?_, g3⟩
    obtain ⟨q', hq', rfl⟩ := List.mem_map.mp hq
    rw [(hf q').1]
    exact g2 q' hq'

/-- An entry OPEN for a new result joins the entries. -/
theorem Filed.opened {hold : List Result} {known : Tag → Bool} {pend : Tag → BayId → Bool}
    (h : Filed es hold known pend) (hk : known r.tag = true)
    (hr : ∀ e rest, es = e :: rest → e.finalMark = true → e.dropped = false → r.tag ≠ e.tag) :
    Filed (es ++ [Entry.openedWith r]) hold known pend := by
  refine ⟨fun e he hd => ?_, h.held, fun e he hm => ?_, fun e rest he hm hd => ?_⟩
  · rcases List.mem_append.mp he with he | he
    · exact h.homes e he hd
    · obtain rfl := List.mem_singleton.mp he
      exact hk
  · rcases List.mem_append.mp he with he | he
    · exact h.sending e he hm
    · obtain rfl := List.mem_singleton.mp he
      simp [Entry.openedWith] at hm
  · cases es with
    | nil =>
      cases he
      exact absurd hm (by simp [Entry.openedWith])
    | cons x xs =>
      cases he
      obtain ⟨g1, g2, g3⟩ := h.last _ _ rfl hm hd
      refine ⟨g1, fun e' he' => ?_, g3⟩
      rcases List.mem_append.mp he' with he' | he'
      · exact g2 e' he'
      · obtain rfl := List.mem_singleton.mp he'
        exact hr _ _ rfl hm hd

theorem Filed.placed {hold : List Result} {known : Tag → Bool} {pend : Tag → BayId → Bool}
    (h : Filed es hold known pend) (hp : placeIn r es = some es') (hk : known r.tag = true)
    (hr : ∀ e rest, es = e :: rest → e.finalMark = true → e.dropped = false → r.tag ≠ e.tag) :
    Filed es' hold known pend := by
  obtain ⟨-, hm⟩ | ⟨-, -, ho⟩ | ⟨-, -, hn⟩ := placeIn_cases (r := r) (es := es)
  · rw [hm] at hp
    cases hp
    exact h.map fun e => by split <;> exact ⟨rfl, rfl, rfl, rfl⟩
  · rw [ho] at hp
    cases hp
    exact h.opened hk hr
  · rw [hn] at hp
    exact absurd hp (by simp)

/-- The rest of a hold queue whose head has been placed or is dropped. -/
theorem Filed.unheld {known : Tag → Bool} {pend : Tag → BayId → Bool}
    (h : Filed es (r :: rs) known pend) : Filed es rs known pend :=
  ⟨h.homes, fun q hq => h.held q (List.mem_cons_of_mem _ hq), h.sending, fun e rest he hm hd => by
    obtain ⟨h1, h2, h3⟩ := h.last e rest he hm hd
    exact ⟨h1, h2, fun q hq => h3 q (List.mem_cons_of_mem _ hq)⟩⟩

/-- A final joins the hold queue. -/
theorem Filed.hold {hold : List Result} {known : Tag → Bool} {pend : Tag → BayId → Bool}
    (h : Filed es hold known pend) (hk : known r.tag = true) (hf : r.kind = .final)
    (hr : ∀ e rest, es = e :: rest → e.finalMark = true → e.dropped = false → r.tag ≠ e.tag) :
    Filed es (hold ++ [r]) known pend := by
  refine ⟨h.homes, fun q hq => ?_, h.sending, fun e rest he hm hd => ?_⟩
  · rcases List.mem_append.mp hq with hq | hq
    · exact h.held q hq
    · obtain rfl := List.mem_singleton.mp hq
      exact ⟨hf, hk⟩
  · obtain ⟨h1, h2, h3⟩ := h.last e rest he hm hd
    refine ⟨h1, h2, fun q hq => ?_⟩
    rcases List.mem_append.mp hq with hq | hq
    · exact h3 q hq
    · obtain rfl := List.mem_singleton.mp hq
      exact hr e rest he hm hd

/-- Without the head no entry has a final mark, since only the head is SENDING. -/
theorem Filed.tail {hold : List Result} {known : Tag → Bool} {pend : Tag → BayId → Bool}
    (h : Filed (e :: es) hold known pend) (hs : ∀ e' ∈ es, e'.sending = false) :
    Filed es hold known pend :=
  ⟨fun e' he' => h.homes e' (List.mem_cons_of_mem _ he'), h.held,
    fun e' he' => h.sending e' (List.mem_cons_of_mem _ he'), fun e' rest he hm _ => by
      have hmem : e' ∈ es := by rw [he]; exact List.mem_cons_self ..
      have := h.sending e' (List.mem_cons_of_mem _ hmem) (.inl hm)
      rw [hs e' hmem] at this
      exact absurd this (by simp)⟩

/-- Held results placed one after another: each is a final whose exchange is known, and no exchange has two
finals from one bay; so the number of finals stays, and the rest stays filed. -/
theorem placedAll_accounts {rest : List Result} {known : Tag → Bool} {pend : Tag → BayId → Bool}
    (hl : EntriesLegal es n) (hf : Filed es (rs ++ rest) known pend)
    (hone : ∀ r ∈ rs, finalsIn es r.tag r.bay + heldOf (rs ++ rest) r.tag r.bay ≤ 1)
    (hp : rs.foldlM (fun es r => placeIn r es) es = some es') :
    Filed es' rest known pend
      ∧ ∀ u b, finalsIn es' u b + heldOf rest u b = finalsIn es u b + heldOf (rs ++ rest) u b := by
  induction rs generalizing es with
  | nil => cases hp; exact ⟨hf, fun _ _ => rfl⟩
  | cons r rs ih =>
    rw [List.foldlM_cons] at hp
    cases hc : placeIn r es with
    | none => rw [hc] at hp; exact absurd hp (by simp)
    | some xs =>
      rw [hc] at hp
      rw [List.cons_append] at hf hone
      have hr := hf.held r (List.mem_cons_self ..)
      have h0 : finalsIn es r.tag r.bay = 0 := by
        have := hone r (List.mem_cons_self ..)
        rw [heldOf_cons, if_pos ⟨rfl, rfl⟩] at this
        omega
      have hcount := finalsIn_placed hl (fun e he hd => hf.sending e he (.inr hd)) hc h0
      have hsum (u b) : finalsIn xs u b + heldOf (rs ++ rest) u b
          = finalsIn es u b + heldOf (r :: (rs ++ rest)) u b := by
        rw [hcount, heldOf_cons]
        simp only [hr.1, true_and]
        omega
      obtain ⟨i1, i2⟩ := ih (hl.placed hc) ((hf.placed hc hr.2 fun e rest' he hm hd =>
        (hf.last e rest' he hm hd).2.2 r (List.mem_cons_self ..)).unheld)
        (fun q hq => by rw [hsum]; exact hone q (List.mem_cons_of_mem _ hq)) hp
      exact ⟨i1, fun u b => (i2 u b).trans (hsum u b)⟩

end Sys2Proof.Machine
end

section
/-! PROOF. The exchange table and the accounts of steps and finals, kept by every step (R99, R103, R113,
R134, R137). -/

namespace Sys2Proof.Machine

open Sys2Proof.Claims

variable {s t : State} {b b' : BayId} {e : Entry} {es es' : List Entry} {n : Nat} {r : Result}
  {u : Tag} {rs : List Result} {x : Exchange}

/-! ## The exchange table (R99) -/

theorem exchangesLegal_congr (h : s.ExchangesLegal) (hx : t.exchanges = s.exchanges) :
    t.ExchangesLegal :=
  ⟨by rw [hx]; exact h.count, by rw [hx]; exact h.tags, by rw [hx]; exact h.records⟩

/-- A change of every record that keeps its tag and its legality. -/
theorem exchangesLegal_map {f : Exchange → Exchange} (h : s.ExchangesLegal)
    (hx : t.exchanges = s.exchanges.map f) (ht : ∀ x, (f x).tag = x.tag)
    (hf : ∀ x, x.Legal → (f x).Legal) : t.ExchangesLegal := by
  refine ⟨by rw [hx, List.length_map]; exact h.count, ?_, fun x hm => ?_⟩
  · rw [hx, List.map_map]
    have : (fun x : Exchange => x.tag) ∘ f = fun x => x.tag := funext ht
    rw [this]
    exact h.tags
  · rw [hx] at hm
    obtain ⟨x', hm', rfl⟩ := List.mem_map.mp hm
    exact hf x' (h.records x' hm')

theorem finalFormed_legal (h : x.Legal) : (x.finalFormed b).Legal := by
  refine ⟨h.tag, fun b' hb => ?_, ?_⟩
  · simp only [Exchange.finalFormed, inSet_withoutBay, Bool.and_eq_true] at hb
    exact h.pending b' hb.1
  · by_cases hz : withoutBay x.pending b = 0
    · simp [Exchange.finalFormed, hz]
    · have hp : x.pending ≠ 0 := fun hp => hz (baySet_eq_zero.mpr fun b' => by rw [hp]; simp)
      simp only [Exchange.finalFormed, if_neg hz, h.opened]
      exact ⟨fun _ => hz, fun _ => hp⟩

theorem handOver_exchangesLegal (h : s.ExchangesLegal) : (s.handOver r).1.ExchangesLegal := by
  refine exchangesLegal_map h handOver_exchanges (fun x => ?_) fun x hx => ?_
  · split <;> rfl
  · split
    · exact finalFormed_legal hx
    · exact hx

theorem handOvers_exchangesLegal (h : s.ExchangesLegal) : (handOvers rs s).1.ExchangesLegal := by
  induction rs generalizing s with
  | nil => exact h
  | cons r rs ih => exact ih (handOver_exchangesLegal h)

theorem record_legal (q : SendRequest) {w : Option WindowSpec} {S : BaySet} (hu : u ≠ 0)
    (hS : S ≠ 0) : (q.record u w S).Legal :=
  ⟨hu, fun _ h => h, ⟨fun _ => hS, fun _ => rfl⟩⟩

theorem exchange?_none (h : s.exchange? u = none) : ∀ x ∈ s.exchanges, x.tag ≠ u := by
  intro x hx ht
  have := List.find?_eq_none.mp h x hx
  simp [ht] at this

theorem startExchange_exchanges {q : SendRequest} {w : Option WindowSpec} {S : BaySet} (hS : S ≠ 0) :
    (s.startExchange q u w S).exchanges = s.exchanges ++ [q.record u w S] := by
  rw [State.startExchange, if_neg hS, mapBays_exchanges]

theorem startExchange_exchangesLegal {q : SendRequest} {w : Option WindowSpec} {S : BaySet}
    (h : s.ExchangesLegal) (hu : u ≠ 0) (hx : s.exchange? u = none)
    (hn : s.exchanges.length < Config.exchangeRecords) :
    (s.startExchange q u w S).ExchangesLegal := by
  by_cases hS : S = 0
  · simpa [State.startExchange, hS] using h
  · have hex := startExchange_exchanges (s := s) (q := q) (u := u) (w := w) hS
    refine ⟨by rw [hex, List.length_append]; exact hn, ?_, fun x hm => ?_⟩
    · rw [hex, List.map_append, List.nodup_append]
      refine ⟨h.tags, by simp, fun v hv v' hv' => ?_⟩
      obtain ⟨x, hxm, rfl⟩ := List.mem_map.mp hv
      have hv' : v' = u := by simpa [SendRequest.record] using hv'
      rw [hv']
      exact exchange?_none hx x hxm
    · rw [hex, List.mem_append, List.mem_singleton] at hm
      rcases hm with hm | rfl
      · exact h.records x hm
      · exact record_legal q hu hS

/-- A record with more bays reported. -/
theorem reported_legal {S : BaySet} (h : x.Legal) : ({ x with reported := S } : Exchange).Legal :=
  ⟨h.tag, h.pending, h.opened⟩

theorem reportEntry_exchangesLegal (h : s.ExchangesLegal) : (s.reportEntry e).ExchangesLegal := by
  unfold State.reportEntry
  split
  · exact h
  · split
    · exact ⟨(List.length_filter_le _ _).trans h.count,
        h.tags.sublist (List.filter_sublist.map _),
        fun x hx => h.records x (List.mem_filter.mp hx).1⟩
    · refine exchangesLegal_map h rfl (fun x => by split <;> rfl) fun x hx => ?_
      split
      · exact reported_legal hx
      · exact hx

theorem placeHeld_exchanges : s.placeHeld.exchanges = s.exchanges := by
  obtain ⟨-, -, -, h, -⟩ := placeHeldFrom_frame (rs := s.clb.hold) (s := s)
  exact h

theorem Move.exchangesLegal (h : Move s t) (hx : s.ExchangesLegal) : t.ExchangesLegal := by
  cases h with
  | bays t he _ hw => rw [he]; exact exchangesLegal_congr hx rfl
  | finals b rs z _ hr hw => exact exchangesLegal_congr (handOvers_exchangesLegal hx) rfl
  | interim r st hf ht hk => exact exchangesLegal_congr hx collate_exchanges
  | send q tag w S ht hn hl hj => exact startExchange_exchangesLegal hx ht hn hl
  | cancelled tag =>
    refine exchangesLegal_map hx rfl (fun x => by split <;> rfl) fun x hl => ?_
    split
    · exact ⟨hl.tag, hl.pending, hl.opened⟩
    · exact hl
  | placing => exact exchangesLegal_congr hx placeHeld_exchanges
  | batchEnd e rest he =>
    exact exchangesLegal_congr (reportEntry_exchangesLegal (e := e)
      (exchangesLegal_congr (t := { s with clb := s.clb.freeHead e rest }) hx rfl)) placeHeld_exchanges
  | blocksReset => exact exchangesLegal_of_empty rfl
  | raise b c d => exact exchangesLegal_congr hx raiseFlag_exchanges
  | levels ls n => exact exchangesLegal_congr hx (reevaluate_frame (s := { s with
      atu := { s.atu with levels := ls, threshold := n } })).exchanges
  | noticeEnded b c =>
    unfold State.noticeEnded
    split <;> exact exchangesLegal_congr hx rfl
  | batchTaken | entries | batching | link | settings | clear | noticeTaken | log =>
    exact exchangesLegal_congr hx rfl

theorem step_exchangesLegal (hs : s.ExchangesLegal) (h : step s = .next t) : t.ExchangesLegal := by
  refine step_keeps (P := State.ExchangesLegal) (fun s l h => exchangesLegal_congr h rfl)
    (fun s t hm hx => hm.exchangesLegal hx) (fun s b _ hx => ?_) (fun p q s t h => ?_) hs h
  · exact exchangesLegal_congr hx (by simp [completeSeating_eq])
  · exact exchangesLegal_of_empty (powerOnReset_frame h).1

/-! ## Pending sets -/

theorem exchange?_of_mem (h : s.ExchangesLegal) (hx : x ∈ s.exchanges) :
    s.exchange? x.tag = some x := by
  have hn := h.tags
  unfold State.exchange?
  generalize s.exchanges = xs at hn hx
  induction xs with
  | nil => exact absurd hx List.not_mem_nil
  | cons y ys ih =>
    obtain ⟨hy, hys⟩ := List.nodup_cons.mp hn
    rw [List.find?_cons]
    rcases List.mem_cons.mp hx with rfl | hx
    · simp
    · have hne : ¬ y.tag = x.tag := fun he => hy (List.mem_map.mpr ⟨x, hx, he.symm⟩)
      simpa [hne] using ih hys hx

theorem pendingAt_of_some (h : s.exchange? u = some x) : s.pendingAt u b = inSet x.pending b := by
  simp [State.pendingAt, h]

theorem pendingAt_of_none (h : s.exchange? u = none) : s.pendingAt u b = false := by
  simp [State.pendingAt, h]

theorem known_of_pendingAt (h : s.pendingAt u b = true) : (s.exchange? u).isSome = true := by
  cases hx : s.exchange? u with
  | none => rw [pendingAt_of_none hx] at h; exact absurd h (by simp)
  | some x => rfl

theorem pendingAt_of_exchanges (h : t.exchanges = s.exchanges) : t.pendingAt u b = s.pendingAt u b := by
  unfold State.pendingAt
  rw [exchange?_of_exchanges h]

/-- A change of the records under one tag that keeps every tag. -/
theorem known_modExchange {v : Tag} {f : Exchange → Exchange} (hf : ∀ x, (f x).tag = x.tag) :
    ((s.modExchange v f).exchange? u).isSome = (s.exchange? u).isSome := by
  rw [exchange?_modExchange hf, Option.isSome_map]

theorem pendingAt_handOver : (s.handOver r).1.pendingAt u b
    = (s.pendingAt u b && !decide (r.tag = u ∧ r.bay = b)) := by
  unfold State.pendingAt
  rw [exchange?_handOver]
  cases hx : s.exchange? u with
  | none => rfl
  | some x =>
    have ht := exchange?_tag hx
    by_cases hu : x.tag = r.tag
    · simp [hu, Exchange.finalFormed, ← ht, eq_comm]
    · have hne : ¬ r.tag = u := fun h => hu (ht.trans h.symm)
      simp [hu, hne]

theorem known_handOver : ((s.handOver r).1.exchange? u).isSome = (s.exchange? u).isSome := by
  rw [exchange?_handOver, Option.isSome_map]

/-! ## The accounts -/

/-- The accounts of AccountsLegal over a number of steps at each bay, the hold queue's bound apart. -/
structure State.Accounts (s : State) (w : Tag → BayId → Nat) : Prop where
  exchanges : s.ExchangesLegal
  entries   : EntriesLegal s.clb.entries s.clb.markCount
  steps     : ∀ u b, w u b = (s.pendingAt u b).toNat
  finals    : ∀ x ∈ s.exchanges, ∀ b, (inSet x.pending b).toNat + s.finalsAt x.tag b
                + (inSet x.reported b).toNat = (inSet x.target b).toNat
  filed     : Filed s.clb.entries s.clb.hold (fun u => (s.exchange? u).isSome) s.pendingAt

theorem State.AccountsLegal.accounts (h : s.AccountsLegal) :
    s.Accounts fun u b => (s.bay b).stepsOf u :=
  ⟨h.exchanges, h.clb.entries, h.steps, h.finals, ⟨h.homes, h.held, h.sending, h.last⟩⟩

theorem accountsLegal_of_accounts (hl : s.LinkLegal) (hc : s.clb.Legal)
    (h : s.Accounts fun u b => (s.bay b).stepsOf u) : s.AccountsLegal :=
  ⟨hl, h.exchanges, hc, h.steps, h.finals, h.filed.homes, h.filed.held, h.filed.sending,
    h.filed.last⟩

variable {w w' : Tag → BayId → Nat}

theorem State.Accounts.of_steps (h : s.Accounts w) (hw : ∀ u b, w' u b = w u b) : s.Accounts w' :=
  ⟨h.exchanges, h.entries, fun u b => (hw u b).trans (h.steps u b), h.finals, h.filed⟩

/-- The exchange table, the entries, the hold queue and the mark count decide the accounts. -/
theorem State.Accounts.congr (h : s.Accounts w) (hx : t.exchanges = s.exchanges)
    (he : t.clb.entries = s.clb.entries) (hh : t.clb.hold = s.clb.hold)
    (hm : t.clb.markCount = s.clb.markCount) : t.Accounts w := by
  have hp : t.pendingAt = s.pendingAt := funext fun u => funext fun b => pendingAt_of_exchanges hx
  have hk : (fun u => (t.exchange? u).isSome) = fun u => (s.exchange? u).isSome :=
    funext fun u => by rw [exchange?_of_exchanges hx]
  have hf : t.finalsAt = s.finalsAt := by unfold State.finalsAt; rw [he, hh]
  exact ⟨exchangesLegal_congr h.exchanges hx, by rw [he, hm]; exact h.entries,
    by rw [hp]; exact h.steps, by rw [hx, hf]; exact h.finals, by rw [he, hh, hp, hk]; exact h.filed⟩

theorem State.Accounts.finals_some (h : s.Accounts w) (hx : s.exchange? u = some x) (b : BayId) :
    (inSet x.pending b).toNat + s.finalsAt u b + (inSet x.reported b).toNat
      = (inSet x.target b).toNat := by
  have := h.finals x (exchange?_mem hx) b
  rwa [exchange?_tag hx] at this

/-- No final of an exchange waits from a bay that is pending in it. -/
theorem State.Accounts.finalsAt_pending (h : s.Accounts w) (hp : s.pendingAt u b = true) :
    s.finalsAt u b = 0 := by
  obtain ⟨x, hx⟩ := Option.isSome_iff_exists.mp (known_of_pendingAt hp)
  rw [pendingAt_of_some hx] at hp
  have := h.finals_some hx b
  have hle := Bool.toNat_le (inSet x.target b)
  rw [hp] at this
  simp at this
  omega

/-- At most one final of an exchange waits from a bay. -/
theorem State.Accounts.finalsAt_le_one (h : s.Accounts w) (hk : (s.exchange? u).isSome = true) :
    s.finalsAt u b ≤ 1 := by
  obtain ⟨x, hx⟩ := Option.isSome_iff_exists.mp hk
  have := h.finals_some hx b
  have hle := Bool.toNat_le (inSet x.target b)
  omega

/-- A result of a pending bay is not of the exchange that a final-marked head retires. -/
theorem Filed.tag_ne {hold : List Result} {known : Tag → Bool} {pend : Tag → BayId → Bool}
    (h : Filed es hold known pend) (hp : pend r.tag r.bay = true) (e : Entry) (rest : List Entry)
    (he : es = e :: rest) (hm : e.finalMark = true) (hd : e.dropped = false) : r.tag ≠ e.tag := by
  intro ht
  have := (h.last e rest he hm hd).1 r.bay
  rw [← ht, hp] at this
  exact absurd this (by simp)

/-! ## A handover and an interim result -/

/-- What the placing of a result of a pending bay leaves of the entries and the hold queue. -/
theorem collate_accounts {v : State} (h : s.Accounts w) (hp : s.pendingAt r.tag r.bay = true)
    (hv : v.clb = s.clb) :
    EntriesLegal (v.collate r).1.clb.entries (v.collate r).1.clb.markCount
    ∧ Filed (v.collate r).1.clb.entries (v.collate r).1.clb.hold (fun u => (s.exchange? u).isSome)
        s.pendingAt
    ∧ ∀ u b, (v.collate r).1.finalsAt u b
        = s.finalsAt u b + if r.kind = .final ∧ r.tag = u ∧ r.bay = b then 1 else 0 := by
  have hk := known_of_pendingAt hp
  have hne := h.filed.tag_ne hp
  have hz := h.finalsAt_pending hp
  rw [finalsAt_eq] at hz
  unfold State.collate
  rw [hv]
  split
  · next es hes =>
    refine ⟨h.entries.placed hes, h.filed.placed hes hk hne, fun u b => ?_⟩
    have := finalsIn_placed h.entries (fun e he hd => h.filed.sending e he (.inr hd)) hes (by omega) u b
    change finalsIn es u b + heldOf s.clb.hold u b = _
    rw [this, finalsAt_eq]
    omega
  · split
    · next hf =>
      refine ⟨h.entries, h.filed.hold hk hf hne, fun u b => ?_⟩
      change finalsIn s.clb.entries u b + heldOf (s.clb.hold ++ [r]) u b = _
      rw [heldOf_append, heldOf_cons, finalsAt_eq]
      simp [hf, heldOf, Nat.add_assoc]
    · next hf =>
      rw [hv]
      exact ⟨h.entries, h.filed, fun u b => by simp [hf, finalsAt_eq, hv]⟩

theorem handOver_accounts (h : s.Accounts w) (hk : r.kind = .final) (hp : 1 ≤ w r.tag r.bay)
    (hw : ∀ u b, w' u b + (if r.tag = u ∧ r.bay = b then 1 else 0) = w u b) :
    (s.handOver r).1.Accounts w' := by
  have hpend : s.pendingAt r.tag r.bay = true := by
    rw [h.steps] at hp
    cases hb : s.pendingAt r.tag r.bay
    · rw [hb] at hp; exact absurd hp (by decide)
    · rfl
  obtain ⟨h1, h2, h3⟩ := collate_accounts (v := s.modExchange r.tag fun x => x.finalFormed r.bay)
    h hpend rfl
  refine ⟨handOver_exchangesLegal h.exchanges, h1, fun u b => ?_, fun x hx b => ?_, ?_⟩
  · have hs := h.steps u b
    have := hw u b
    rw [pendingAt_handOver]
    by_cases hub : r.tag = u ∧ r.bay = b
    · obtain ⟨rfl, rfl⟩ := hub
      rw [hpend] at hs
      simp at this hs ⊢
      omega
    · simp [hub] at this ⊢
      omega
  · rw [handOver_exchanges] at hx
    obtain ⟨x', hx', rfl⟩ := List.mem_map.mp hx
    have hf := h.finals x' hx' b
    have hfin : (s.handOver r).1.finalsAt x'.tag b
        = s.finalsAt x'.tag b + if r.kind = .final ∧ r.tag = x'.tag ∧ r.bay = b then 1 else 0 :=
      h3 x'.tag b
    by_cases ht : x'.tag = r.tag
    · rw [if_pos ht]
      change (inSet (withoutBay x'.pending r.bay) b).toNat + (s.handOver r).1.finalsAt x'.tag b
        + (inSet x'.reported b).toNat = (inSet x'.target b).toNat
      rw [hfin, inSet_withoutBay]
      by_cases hb : b = r.bay
      · subst hb
        have hin : inSet x'.pending r.bay = true := by
          rw [← pendingAt_of_some (exchange?_of_mem h.exchanges hx'), ht]; exact hpend
        rw [hin] at hf ⊢
        simp [hk, ht] at hf ⊢
        omega
      · have hb' : ¬ r.bay = b := fun h => hb h.symm
        simpa [hb, hb'] using hf
    · have ht' : ¬ r.tag = x'.tag := fun h => ht h.symm
      rw [if_neg ht, hfin]
      simpa [ht'] using hf
  · exact h2.mono (fun u hu => by rw [known_handOver]; exact hu) fun u b hb => by
      rw [pendingAt_handOver, Bool.and_eq_true] at hb
      exact hb.1

theorem filter_length_cons (u : Tag) : ((r :: rs).filter fun r => decide (r.tag = u)).length
    = (if r.tag = u then 1 else 0) + (rs.filter fun r => decide (r.tag = u)).length := by
  rw [List.filter_cons]
  by_cases h : r.tag = u <;> simp [h, Nat.add_comm]

theorem handOvers_accounts (h : s.Accounts w) (hr : ∀ r ∈ rs, r.bay = b ∧ r.kind = .final)
    (hw : ∀ u b', w' u b' + (if b' = b then (rs.filter fun r => decide (r.tag = u)).length else 0)
      = w u b') : (handOvers rs s).1.Accounts w' := by
  induction rs generalizing s w with
  | nil => exact h.of_steps fun u b' => by simpa using hw u b'
  | cons r rs ih =>
    obtain ⟨hb, hk⟩ := hr r (List.mem_cons_self ..)
    refine ih (w := fun u b' => w' u b'
      + if b' = b then (rs.filter fun r => decide (r.tag = u)).length else 0) (handOver_accounts h hk ?_
      fun u b' => ?_) (fun q hq => hr q (List.mem_cons_of_mem _ hq)) fun u b' => rfl
    · have := hw r.tag b
      rw [filter_length_cons] at this
      simp at this
      rw [hb]
      omega
    · have := hw u b'
      rw [filter_length_cons] at this
      rw [hb, ← this]
      by_cases h1 : r.tag = u <;> by_cases h2 : b' = b
      · simp [h1, h2]; omega
      · simp [h1, h2, Ne.symm h2]
      · simp [h1, h2]
      · simp [h1, h2]

theorem interim_accounts (h : s.Accounts w) (hk : r.kind = .interim) (hp : 1 ≤ w r.tag r.bay) :
    (s.collate r).1.Accounts w := by
  have hpend : s.pendingAt r.tag r.bay = true := by
    rw [h.steps] at hp
    cases hb : s.pendingAt r.tag r.bay
    · rw [hb] at hp; exact absurd hp (by decide)
    · rfl
  obtain ⟨h1, h2, h3⟩ := collate_accounts (v := s) h hpend rfl
  have hx : (s.collate r).1.exchanges = s.exchanges := collate_exchanges
  refine ⟨exchangesLegal_congr h.exchanges hx, h1, fun u b => ?_, fun x hm b => ?_, ?_⟩
  · rw [pendingAt_of_exchanges hx]; exact h.steps u b
  · rw [h3, hk]
    rw [hx] at hm
    simpa using h.finals x hm b
  · exact h2.mono (fun u hu => by rw [exchange?_of_exchanges hx]; exact hu) fun u b hb => by
      rwa [pendingAt_of_exchanges hx] at hb

/-! ## A placement pass and the end of a batch notice -/

theorem placeHeld_accounts (h : s.Accounts w) : s.placeHeld.Accounts w := by
  obtain ⟨placed, hh, hp, -, -, hc⟩ := placeHeld_spec s
  have hf := h.filed
  rw [hh] at hf
  obtain ⟨h1, h2⟩ := placedAll_accounts h.entries hf (fun r hr => by
    rw [← hh, ← finalsAt_eq]
    exact h.finalsAt_le_one (hf.held r (List.mem_append_left _ hr)).2) hp
  have hx : s.placeHeld.exchanges = s.exchanges := placeHeld_exchanges
  have hm : s.placeHeld.clb.markCount = s.clb.markCount := by rw [hc]
  refine ⟨exchangesLegal_congr h.exchanges hx, by rw [hm]; exact h.entries.placedAll hp,
    fun u b => ?_, fun x hm b => ?_, ?_⟩
  · rw [pendingAt_of_exchanges hx]; exact h.steps u b
  · rw [hx] at hm
    rw [finalsAt_eq, h2, ← hh, ← finalsAt_eq]
    exact h.finals x hm b
  · exact h1.mono (fun u hu => by rw [exchange?_of_exchanges hx]; exact hu) fun u b hb => by
      rwa [pendingAt_of_exchanges hx] at hb

theorem inSet_finals : inSet e.finals b = e.hasFinal b := by
  unfold Entry.finals; rw [inSet_setOf]

/-- A change of records that keeps tags and pending sets. -/
theorem pendingAt_modExchange {v : Tag} {f : Exchange → Exchange} (hf : ∀ x, (f x).tag = x.tag)
    (hp : ∀ x, (f x).pending = x.pending) :
    (s.modExchange v f).pendingAt u b = s.pendingAt u b := by
  unfold State.pendingAt
  rw [exchange?_modExchange hf]
  cases s.exchange? u with
  | none => rfl
  | some x =>
    simp only [Option.map_some]
    split
    · rw [hp]
    · rfl

/-- A table without the records of a tag. -/
def State.retired (s : State) (v : Tag) : State :=
  { s with exchanges := s.exchanges.filter fun x => decide (x.tag ≠ v) }

theorem exchange?_retired {v : Tag} :
    (s.retired v).exchange? u = if u = v then none else s.exchange? u := by
  unfold State.exchange? State.retired
  simp only [List.find?_filter]
  split
  · next hu =>
    rw [hu]
    exact List.find?_eq_none.mpr fun x _ => by simp
  · next hu =>
    congr 1
    funext x
    by_cases hxu : x.tag = u
    · simp [hxu, hu]
    · simp [hxu]

theorem pendingAt_retired {v : Tag} (h : ∀ b, s.pendingAt v b = false) :
    (s.retired v).pendingAt u b = s.pendingAt u b := by
  by_cases hu : u = v
  · rw [pendingAt_of_none (by rw [exchange?_retired, if_pos hu]), hu, h]
  · unfold State.pendingAt
    rw [exchange?_retired, if_neg hu]

section
variable {rest : List Entry} {v : State}

/-- The number of finals without the head. -/
theorem finalsAt_head (he : s.clb.entries = e :: rest) (hv : v.clb = s.clb.freeHead e rest) (u : Tag)
    (b : BayId) : s.finalsAt u b
      = (if e.dropped = false ∧ e.tag = u ∧ e.hasFinal b = true then 1 else 0) + v.finalsAt u b := by
  rw [finalsAt_eq, he, finalsIn_cons, Nat.add_assoc, finalsAt_eq, hv]
  rfl

theorem freeHead_filed (h : s.Accounts w) (he : s.clb.entries = e :: rest) :
    Filed rest s.clb.hold (fun u => (s.exchange? u).isSome) s.pendingAt := by
  have hl := h.entries
  have hf := h.filed
  rw [he] at hl hf
  exact hf.tail hl.sending

theorem freeHead_entries (h : s.Accounts w) (he : s.clb.entries = e :: rest) :
    EntriesLegal rest (s.clb.freeHead e rest).markCount := by
  have hl := h.entries
  rw [he] at hl
  exact hl.tail

/-- A head that a station reset dropped leaves with nothing reported (R143). -/
theorem freeHead_dropped_accounts (h : s.Accounts w) (he : s.clb.entries = e :: rest)
    (hd : e.dropped = true) :
    ({ s with clb := s.clb.freeHead e rest } : State).Accounts w := by
  refine ⟨exchangesLegal_congr h.exchanges rfl, freeHead_entries h he, h.steps, fun x hx b => ?_,
    (freeHead_filed h he).mono (fun _ hu => hu) fun _ _ hb => hb⟩
  have hc := finalsAt_head (v := { s with clb := s.clb.freeHead e rest }) he rfl x.tag b
  have hf := h.finals x hx b
  rw [hd] at hc
  simp at hc
  omega

/-- A final-marked head retires its exchange (R137). -/
theorem freeHead_retired_accounts (h : s.Accounts w) (he : s.clb.entries = e :: rest)
    (hd : e.dropped = false) (hm : e.finalMark = true) :
    (({ s with clb := s.clb.freeHead e rest } : State).retired e.tag).Accounts w := by
  obtain ⟨g1, g2, g3⟩ := h.filed.last e rest he hm hd
  have hpend (u b) : (({ s with clb := s.clb.freeHead e rest } : State).retired e.tag).pendingAt u b
      = s.pendingAt u b := pendingAt_retired (s := { s with clb := s.clb.freeHead e rest }) g1
  have hknown {u} (hu : u ≠ e.tag) (hk : (s.exchange? u).isSome = true) :
      ((({ s with clb := s.clb.freeHead e rest } : State).retired e.tag).exchange? u).isSome = true := by
    rw [exchange?_retired, if_neg hu]
    exact hk
  have ht := freeHead_filed h he
  refine ⟨⟨(List.length_filter_le _ _).trans h.exchanges.count,
    h.exchanges.tags.sublist (List.filter_sublist.map _),
    fun x hx => h.exchanges.records x (List.mem_filter.mp hx).1⟩, freeHead_entries h he,
    fun u b => by rw [hpend]; exact h.steps u b, fun x hx b => ?_,
    fun e' he' hd' => hknown (g2 e' he') (ht.homes e' he' hd'),
    fun r hr => ⟨(ht.held r hr).1, hknown (g3 r hr) (ht.held r hr).2⟩, ht.sending,
    fun e' rest' he' hm' hd' => ?_⟩
  · obtain ⟨hx, hne⟩ := List.mem_filter.mp hx
    have hne : ¬ e.tag = x.tag := fun h => by simp [h] at hne
    have hc := finalsAt_head (v := ({ s with clb := s.clb.freeHead e rest } : State).retired e.tag)
      he rfl x.tag b
    have hf := h.finals x hx b
    simp [hne] at hc
    omega
  · obtain ⟨k1, k2, k3⟩ := ht.last e' rest' he' hm' hd'
    exact ⟨fun b => by rw [hpend]; exact k1 b, k2, k3⟩

/-- The record of an exchange with the bays of an entry's finals reported (R136, step 3). -/
def Entry.report (e : Entry) (x : Exchange) : Exchange := { x with reported := x.reported ||| e.finals }

/-- Any other head reports the bays of its finals. -/
theorem freeHead_reported_accounts (h : s.Accounts w) (he : s.clb.entries = e :: rest)
    (hd : e.dropped = false) :
    (({ s with clb := s.clb.freeHead e rest } : State).modExchange e.tag e.report).Accounts w := by
  have hpend (u b) : (({ s with clb := s.clb.freeHead e rest } : State).modExchange e.tag
      e.report).pendingAt u b = s.pendingAt u b :=
    pendingAt_modExchange (s := { s with clb := s.clb.freeHead e rest }) (fun _ => rfl) fun _ => rfl
  refine ⟨exchangesLegal_map h.exchanges rfl (fun x => by split <;> rfl) fun x hx => ?_,
    freeHead_entries h he, fun u b => by rw [hpend]; exact h.steps u b, fun x hx b => ?_, ?_⟩
  · split
    · exact reported_legal hx
    · exact hx
  · obtain ⟨x', hx', rfl⟩ := List.mem_map.mp hx
    have hf := h.finals x' hx' b
    have hle := Bool.toNat_le (inSet x'.target b)
    have hc := finalsAt_head (v := ({ s with clb := s.clb.freeHead e rest } : State).modExchange e.tag
      e.report) he rfl x'.tag b
    by_cases ht : x'.tag = e.tag
    · rw [if_pos ht]
      change (inSet x'.pending b).toNat + State.finalsAt _ x'.tag b
        + (inSet (x'.reported ||| e.finals) b).toNat = (inSet x'.target b).toNat
      have hor : inSet (x'.reported ||| e.finals) b = (inSet x'.reported b || e.hasFinal b) := by
        rw [← inSet_finals]
        simp [inSet]
      rw [hor]
      simp only [hd, ht, true_and] at hc hf ⊢
      cases hb : e.hasFinal b with
      | false => simp [hb] at hc ⊢; omega
      | true =>
        simp [hb] at hc
        cases hrep : inSet x'.reported b with
        | false => simp [hrep] at hf ⊢; omega
        | true => simp [hrep] at hf ⊢; omega
    · have ht' : ¬ e.tag = x'.tag := fun h => ht h.symm
      rw [if_neg ht]
      simp [ht'] at hc
      omega
  · refine (freeHead_filed h he).mono (fun u hu => ?_) fun u b hb => by rwa [hpend] at hb
    rw [known_modExchange (f := e.report) (fun _ => rfl)]
    exact hu

/-- The end of a batch notice before its placement pass. -/
theorem freeHead_accounts (h : s.Accounts w) (he : s.clb.entries = e :: rest) :
    (({ s with clb := s.clb.freeHead e rest } : State).reportEntry e).Accounts w := by
  unfold State.reportEntry
  split
  · next hd => exact freeHead_dropped_accounts h he hd
  · next hd =>
    have hd : e.dropped = false := Bool.eq_false_iff.mpr hd
    split
    · next hm => exact freeHead_retired_accounts h he hd hm
    · exact freeHead_reported_accounts h he hd

end

/-! ## The other moves of the exchange table and the entries -/

/-- The taking of the head: its final mark is set only when nothing else of its exchange is left (R134). -/
theorem batchTaken_accounts {rest : List Entry} (h : s.Accounts w) (he : s.clb.entries = e :: rest) :
    ({ s with clb := { s.clb with entries := s.takenHead e rest :: rest, offer := false } } :
      State).Accounts w := by
  have hl := h.entries
  have hf := h.filed
  rw [he] at hl hf
  have hkeys : openKeys (s.takenHead e rest :: rest) = openKeys rest := by
    simp [openKeys, State.takenHead]
  have hmark : ((s.takenHead e rest :: rest).filter Entry.marked).length
      = ((e :: rest).filter Entry.marked).length := by
    have hm : (s.takenHead e rest).marked = e.marked := rfl
    rw [List.filter_cons, List.filter_cons, hm]
    split <;> rfl
  refine ⟨exchangesLegal_congr h.exchanges rfl,
    ⟨hl.count, hkeys.symm ▸ hl.keys.sublist openKeys_cons_subset, hl.sending, hl.marks.trans hmark.symm⟩,
    h.steps, fun x hx b => ?_, ?_⟩
  · have hc : s.finalsAt x.tag b
        = finalsIn (s.takenHead e rest :: rest) x.tag b + heldOf s.clb.hold x.tag b := by
      rw [finalsAt_eq, he, finalsIn_cons, finalsIn_cons]
      rfl
    have := h.finals x hx b
    rw [hc] at this
    exact this
  · refine ⟨fun e' he' hd => ?_, hf.held, fun e' he' hm => ?_, fun e' rest' he' hm hd => ?_⟩
    · rcases List.mem_cons.mp he' with rfl | he'
      · exact hf.homes e (List.mem_cons_self ..) hd
      · exact hf.homes e' (List.mem_cons_of_mem _ he') hd
    · rcases List.mem_cons.mp he' with rfl | he'
      · rfl
      · exact hf.sending e' (List.mem_cons_of_mem _ he') hm
    · cases he'
      change s.finalMarkOf e rest = true at hm
      unfold State.finalMarkOf at hm
      split at hm
      · exact absurd hm (by simp)
      · next x hx =>
        simp only [Bool.and_eq_true, decide_eq_true_eq, List.all_eq_true] at hm
        obtain ⟨⟨hp, hr⟩, hh⟩ := hm
        refine ⟨fun b => ?_, hr, hh⟩
        change s.pendingAt e.tag b = false
        rw [pendingAt_of_some hx, hp]
        exact inSet_zero b

theorem entries_accounts {f : Entry → Entry} (h : s.Accounts w)
    (hf : ∀ e, f e = { e with
      age := (f e).age, syncMark := (f e).syncMark, queryMark := (f e).queryMark })
    (hn : n = ((s.clb.entries.map f).filter Entry.marked).length) :
    ({ s with clb := { s.clb with entries := s.clb.entries.map f, markCount := n } } :
      State).Accounts w := by
  have hkeep (e : Entry) : (f e).tag = e.tag ∧ (f e).board = e.board ∧ (f e).sending = e.sending
      ∧ (f e).finalMark = e.finalMark ∧ (f e).dropped = e.dropped ∧ (f e).slots = e.slots := by
    rw [hf e]
    exact ⟨rfl, rfl, rfl, rfl, rfl, rfl⟩
  refine ⟨exchangesLegal_congr h.exchanges rfl, h.entries.map (fun e => ?_) hn, h.steps,
    fun x hx b => ?_, h.filed.map fun e => ?_⟩
  · obtain ⟨h1, h2, h3, -⟩ := hkeep e
    exact ⟨h1, h2, h3⟩
  · have hc : s.finalsAt x.tag b
        = finalsIn (s.clb.entries.map f) x.tag b + heldOf s.clb.hold x.tag b := by
      rw [finalsIn_map fun e _ => ?_, finalsAt_eq]
      obtain ⟨h1, h2, -, -, h5, h6⟩ := hkeep e
      exact ⟨h5, h1, fun _ _ => by unfold Entry.hasFinal; rw [h2, h6]⟩
    have := h.finals x hx b
    rw [hc] at this
    exact this
  · obtain ⟨h1, -, h3, h4, h5, -⟩ := hkeep e
    exact ⟨h1, h3, h4, h5⟩

theorem cancelled_accounts (v : Tag) (h : s.Accounts w) :
    (s.modExchange v fun x => { x with cancelled := true }).Accounts w := by
  have hp (u b) : (s.modExchange v fun x => { x with cancelled := true }).pendingAt u b
      = s.pendingAt u b := pendingAt_modExchange (fun _ => rfl) fun _ => rfl
  refine ⟨exchangesLegal_map h.exchanges rfl (fun x => by split <;> rfl) fun x hl => ?_, h.entries,
    fun u b => by rw [hp]; exact h.steps u b, fun x hx b => ?_,
    h.filed.mono (fun u hu => ?_) fun u b hb => by rwa [hp] at hb⟩
  · split
    · exact ⟨hl.tag, hl.pending, hl.opened⟩
    · exact hl
  · obtain ⟨x', hx', rfl⟩ := List.mem_map.mp hx
    have := h.finals x' hx' b
    split <;> exact this
  · rw [known_modExchange (f := fun x => { x with cancelled := true }) (fun _ => rfl)]
    exact hu

/-- The steps of an exchange after an append (R101). -/
theorem stepsOf_append {y : Bay} {v : Tag} {windowed : Bool} :
    (y.append v windowed).stepsOf u = y.stepsOf u + if v = u then 1 else 0 := by
  unfold Bay.append Bay.stepsOf
  by_cases h : v = u
  · subst h; simp [Place.isStepOf, Step.fresh, Nat.add_assoc]
  · simp [Place.isStepOf, Step.fresh, h]

/-- A new exchange: its target set is pending, and nothing of it waits in the buffer (R101). -/
theorem startExchange_accounts {q : SendRequest} {v : Tag} {spec : Option WindowSpec} {S : BaySet}
    (h : s.Accounts fun u b => (s.bay b).stepsOf u) (hv : v ≠ 0) (hx : s.exchange? v = none)
    (hn : s.exchanges.length < Config.exchangeRecords) :
    (s.startExchange q v spec S).Accounts
      fun u b => ((s.startExchange q v spec S).bay b).stepsOf u := by
  by_cases hS : S = 0
  · have he : s.startExchange q v spec S = s := if_pos hS
    rw [he]
    exact h
  have hex := startExchange_exchanges (s := s) (q := q) (u := v) (w := spec) hS
  have hclb : (s.startExchange q v spec S).clb = s.clb := by
    rw [State.startExchange, if_neg hS, mapBays_clb]
  have hfind (u) : (s.startExchange q v spec S).exchange? u
      = if u = v then some (q.record v spec S) else s.exchange? u := by
    unfold State.exchange?
    rw [hex, List.find?_append]
    split
    · next hu =>
      have hnone : s.exchanges.find? (fun x => decide (x.tag = u)) = none := by rw [hu]; exact hx
      rw [hnone, hu]
      simp [SendRequest.record]
    · next hu =>
      have hne : ¬ (q.record v spec S).tag = u := fun h => hu h.symm
      simp [hne]
  have hpend (u b) : (s.startExchange q v spec S).pendingAt u b
      = if u = v then inSet S b else s.pendingAt u b := by
    unfold State.pendingAt
    rw [hfind]
    by_cases hu : u = v
    · simp only [if_pos hu]; rfl
    · simp only [if_neg hu]
  have hnew (e : Entry) (he : e ∈ s.clb.entries) (hd : e.dropped = false) : e.tag ≠ v := fun ht => by
    have := h.filed.homes e he hd
    rw [ht, hx] at this
    exact absurd this (by simp)
  have hnewHeld (r : Result) (hr : r ∈ s.clb.hold) : r.tag ≠ v := fun ht => by
    have := (h.filed.held r hr).2
    rw [ht, hx] at this
    exact absurd this (by simp)
  have hknown {u} (hu : (s.exchange? u).isSome = true) :
      ((s.startExchange q v spec S).exchange? u).isSome = true := by
    rw [hfind]
    split
    · rfl
    · exact hu
  refine ⟨startExchange_exchangesLegal h.exchanges hv hx hn, by rw [hclb]; exact h.entries,
    fun u b => ?_, fun x hxm b => ?_, ?_⟩
  · rw [hpend, startExchange_bay]
    have hs := h.steps u b
    have hz := h.steps v b
    rw [pendingAt_of_none hx] at hz
    by_cases hu : u = v
    · subst hu
      rw [if_pos rfl]
      cases hb : inSet S b with
      | true => rw [if_pos rfl, stepsOf_append, if_pos rfl]; simpa using hz
      | false => rw [if_neg (by simp)]; exact hz
    · rw [if_neg hu]
      have hu' : ¬ v = u := fun h => hu h.symm
      split
      · rw [stepsOf_append, if_neg hu']; exact hs
      · exact hs
  · have hfin (u) : (s.startExchange q v spec S).finalsAt u b = s.finalsAt u b := by
      unfold State.finalsAt; rw [hclb]
    rw [hfin]
    rw [hex, List.mem_append, List.mem_singleton] at hxm
    rcases hxm with hxm | rfl
    · exact h.finals x hxm b
    · have h1 : finalsIn s.clb.entries v b = 0 :=
        List.length_eq_zero_iff.mpr (List.filter_eq_nil_iff.mpr fun e he => by
          by_cases hd : e.dropped = false
          · simp [hnew e he hd]
          · simp [hd])
      have h2 : heldOf s.clb.hold v b = 0 :=
        List.length_eq_zero_iff.mpr (List.filter_eq_nil_iff.mpr fun r hr => by simp [hnewHeld r hr])
      have h3 : s.finalsAt v b = 0 := by rw [finalsAt_eq, h1, h2]
      simp [SendRequest.record, h3]
  · rw [hclb]
    refine ⟨fun e he hd => hknown (h.filed.homes e he hd),
      fun r hr => ⟨(h.filed.held r hr).1, hknown (h.filed.held r hr).2⟩, h.filed.sending,
      fun e rest he hm hd => ?_⟩
    obtain ⟨h1, h2, h3⟩ := h.filed.last e rest he hm hd
    have hne := hnew e (by rw [he]; exact List.mem_cons_self ..) hd
    exact ⟨fun b => by rw [hpend, if_neg hne]; exact h1 b, h2, h3⟩

theorem blocksReset_accounts (h : s.clb.Legal) :
    s.blocksReset.Accounts fun u b => (s.blocksReset.bay b).stepsOf u := by
  have hx : s.blocksReset.exchanges = [] := rfl
  have hc : s.blocksReset.clb = s.clb.stationReset := by simp [State.blocksReset]
  have hdropped : ∀ e ∈ s.clb.stationReset.entries, e.sending = true ∧ e.dropped = true := fun e he => by
    obtain ⟨e', he', rfl⟩ := List.mem_map.mp he
    exact ⟨(List.mem_filter.mp he').2, rfl⟩
  refine ⟨exchangesLegal_of_empty hx, by rw [hc]; exact (stationReset_legal h).entries,
    fun u b => ?_, by simp [hx], ?_⟩
  · rw [pendingAt_of_none (by simp [State.exchange?, hx]), blocksReset_bay]
    exact stepsOf_of_no_step rfl (by simp [Bay.stationReset])
  · rw [hc]
    refine ⟨fun e he hd => ?_, fun r hr => absurd hr List.not_mem_nil, fun e he _ => (hdropped e he).1,
      fun e rest he _ hd => ?_⟩
    · rw [(hdropped e he).2] at hd
      exact absurd hd (by simp)
    · rw [(hdropped e (by rw [he]; exact List.mem_cons_self ..)).2] at hd
      exact absurd hd (by simp)

/-! ## Every step -/

theorem stepsOf_dropHeld (v : Tag) (ps : List Place) :
    ((dropHeld v ps).filter (Place.isStepOf u)).length = (ps.filter (Place.isStepOf u)).length := by
  fun_induction dropHeld v ps <;> simp_all [Place.isStepOf, List.filter_cons]
  split <;> simp_all

/-- A placed result frees a held place, and no step. -/
theorem stepsOf_freeHeld {y : Bay} (v : Tag) : (y.freeHeld v).stepsOf u = y.stepsOf u := by
  obtain ⟨hf, h⟩ | ⟨hf, h⟩ := freeHeld_eq y v <;> rw [h, stepsOf_relink]
  · simp [Bay.stepsOf, hf]
  · simp [Bay.stepsOf, stepsOf_dropHeld]

theorem stepsOf_freed {y : Bay} (placed : List Result) :
    (y.freed b placed).stepsOf u = y.stepsOf u := by
  unfold Bay.freed
  generalize placed.filter _ = l
  induction l generalizing y with
  | nil => rfl
  | cons r l ih => rw [List.foldl_cons, ih, stepsOf_freeHeld]

theorem placeHeld_stepsOf : (s.placeHeld.bay b).stepsOf u = (s.bay b).stepsOf u := by
  obtain ⟨placed, -, -, h, -⟩ := placeHeld_spec s
  rw [h, stepsOf_freed]

theorem Move.linkLegal (h : Move s t) (hl : s.LinkLegal) : t.LinkLegal :=
  fun b => (h.bay b).keeps (P := fun y => y.PowerLegal ∧ y.LinkLegal)
    (fun _ _ hm hy => ⟨hm.powerLegal hy.1, hm.linkLegal hy.2⟩) (hl b)

theorem accounts_of_bays {v : Tag → BayId → Nat} (h : s.Accounts w) (hx : t.exchanges = s.exchanges)
    (hc : t.clb = s.clb) (hw : ∀ u b, v u b = w u b) : t.Accounts v :=
  (h.congr hx (by rw [hc]) (by rw [hc]) (by rw [hc])).of_steps hw

/-- The steps at the bays after a move that leaves them. -/
theorem stepsOf_of_bays (h : t.bays = s.bays) (u : Tag) (b : BayId) :
    (t.bay b).stepsOf u = (s.bay b).stepsOf u := by
  unfold State.bay; rw [h]

theorem Move.accounts (h : Move s t) (ha : s.AccountsLegal) :
    t.Accounts fun u b => (t.bay b).stepsOf u := by
  have hs := ha.accounts
  cases h with
  | bays t he _ hw =>
    exact accounts_of_bays hs (by rw [he]) (by rw [he]) fun u b => hw ha.link b u
  | finals b rs z _ hr hw =>
    refine accounts_of_bays (handOvers_accounts (w' := fun u b' => if b' = b then z.stepsOf u
      else (s.bay b').stepsOf u) hs hr fun u b' => ?_) rfl rfl fun u b' => ?_
    · by_cases hb : b' = b
      · subst hb; simpa using hw u
      · simp [hb]
    · rw [setBay_bay]
      split
      · rfl
      · rw [handOvers_bay]
  | interim r st hf ht hk =>
    refine accounts_of_bays (interim_accounts hs hk ?_) rfl rfl fun u b => stepsOf_of_bays collate_bays u b
    simp only [Bay.stepsOf, hf, ht, if_true]
    omega
  | send q tag w S ht hx hn hj => exact startExchange_accounts hs ht hx hn
  | cancelled tag => exact cancelled_accounts tag hs
  | placing =>
    exact accounts_of_bays (placeHeld_accounts hs) rfl rfl fun u b => placeHeld_stepsOf
  | batchEnd e rest he =>
    refine accounts_of_bays (placeHeld_accounts (freeHead_accounts hs he)) rfl rfl fun u b => ?_
    rw [placeHeld_stepsOf]
    exact stepsOf_of_bays (reportEntry_frame (s := { s with clb := s.clb.freeHead e rest }) e).1 u b
  | batchTaken e rest he => exact batchTaken_accounts hs he
  | entries f n hf hn => exact entries_accounts hs hf (hn ha.clb)
  | blocksReset => exact blocksReset_accounts ha.clb
  | raise b c d =>
    exact accounts_of_bays hs raiseFlag_exchanges raiseFlag_clb fun u b => by rw [raiseFlag_bay]
  | levels ls n =>
    have hfr := reevaluate_frame (s := { s with
      atu := { s.atu with levels := ls, threshold := n } })
    exact accounts_of_bays hs hfr.exchanges hfr.clb fun u b => stepsOf_of_bays hfr.bays u b
  | noticeEnded b c =>
    unfold State.noticeEnded
    split <;> exact accounts_of_bays hs rfl rfl fun _ _ => rfl
  | batching | link | settings | clear | noticeTaken | log =>
    exact hs.congr rfl rfl rfl rfl

theorem Move.accountsLegal (h : Move s t) (ha : s.AccountsLegal) : t.AccountsLegal :=
  accountsLegal_of_accounts (h.linkLegal ha.link) (h.clbLegal ha.clb) (h.accounts ha)

theorem completeSeating_linkLegal (hb : (s.bay b).seat = .seating) (h : s.LinkLegal) :
    (s.completeSeating b).LinkLegal := by
  intro b'
  rw [completeSeating_eq, raiseFlag_bay, modBay_bay]
  split
  · exact ⟨PowerLegal.seated (h b).1 hb, (h b).2.seated (h b).1 hb⟩
  · exact h b'

theorem powerOnReset_linkLegal {p q : Bool} (h : exec (.powerOnReset p q) s = .next t) :
    t.LinkLegal := by
  intro b
  rw [powerOnReset_bay h]
  exact (bay_powerOnReset_moves _ _).keeps (P := fun y => y.PowerLegal ∧ y.LinkLegal)
    (fun _ _ hm hy => ⟨hm.powerLegal hy.1, hm.linkLegal hy.2⟩) ⟨powerLegal_reset, linkLegal_reset⟩

theorem powerOnReset_stepsOf {p q : Bool} (h : exec (.powerOnReset p q) s = .next t) (b : BayId)
    (u : Tag) : (t.bay b).stepsOf u = 0 := by
  rw [powerOnReset_bay h]
  unfold Bay.powerOnReset
  split
  · unfold Bay.sensorCloses; split <;> rfl
  · rfl

theorem step_accountsLegal (hs : s.AccountsLegal) (h : step s = .next t) : t.AccountsLegal := by
  refine step_keeps (P := State.AccountsLegal) (fun s l h => ?_) (fun s t hm ha => hm.accountsLegal ha)
    (fun s b hb ha => ?_) (fun p q s t h => ?_) hs h
  · exact accountsLegal_of_accounts (fun b => h.link b) h.clb (accounts_of_bays h.accounts rfl rfl
      fun _ _ => rfl)
  · refine accountsLegal_of_accounts (completeSeating_linkLegal hb ha.link) ?_
      (accounts_of_bays ha.accounts ?_ ?_ fun u b' => ?_)
    · rw [completeSeating_eq, raiseFlag_clb]; exact ha.clb
    · simp [completeSeating_eq]
    · simp [completeSeating_eq]
    · rw [completeSeating_eq, raiseFlag_bay, modBay_bay]
      split
      · next hb => rw [hb]; rfl
      · rfl
  · obtain ⟨hx, hc, -, -⟩ := powerOnReset_frame h
    exact accountsLegal_of_empty (powerOnReset_linkLegal h) hx hc (powerOnReset_stepsOf h)

/-- Settles O6: the records by themselves, and the accounts of steps and finals by the handover, the
placing, the report and the retirement of each final. -/
theorem stepKeepsExchangesLegal : Obligations.StepKeepsExchangesLegal :=
  ⟨fun _ _ => step_exchangesLegal, fun _ _ => step_accountsLegal⟩

end Sys2Proof.Machine
end

section
/-! PROOF. Seating, the supply reports and the boot of one bay (chapter 1): commands that change their bay and
raise at most one flag. -/

namespace Sys2Proof.Machine

open Sys2Proof.Claims

variable {s t : State} {b : BayId} {y z : Bay} {f : Bay → Bay} {c : AttClass} {d : ClassData}

/-! ## A change of one bay with a raise there -/

/-- What a change of bay `b` to `y`, with class `c` raised there, does to the station. -/
structure RaisedAt (b : BayId) (y : Bay) (c : AttClass) (d : ClassData) (s t : State) : Prop where
  bay       : t.bay b = y
  others    : OnlyBay b s t
  station   : SameStation s t
  exchanges : t.exchanges = s.exchanges
  clb       : t.clb = s.clb
  raised    : (t.flag b c).state ≠ .clear
  seating   : (t.flag b c).seating = y.seating
  data      : (t.flag b c).data = d
  flags     : ∀ b' c', (b', c') ≠ (b, c) → t.flag b' c' = s.flag b' c'

/-- A raise leaves the station's settings, the log and the Station Link Controller. -/
theorem raiseFlag_sameStation : SameStation s (s.raiseFlag b c d) := by
  obtain ⟨hl, ht, hr, hd⟩ := raiseFlag_settings (s := s) (b := b) (c := c) (d := d)
  exact ⟨raiseFlag_bayCount, raiseFlag_seatDebounceMs, raiseFlag_groups, ⟨hl, ht⟩, ⟨hr, hd⟩,
    raiseFlag_slc, raiseFlag_pending⟩

theorem sameStation_trans {u : State} (h : SameStation s t) (h' : SameStation t u) :
    SameStation s u :=
  ⟨h'.1.trans h.1, h'.2.trans h.2, h'.3.trans h.3, ⟨h'.4.1.trans h.4.1, h'.4.2.trans h.4.2⟩,
    ⟨h'.5.1.trans h.5.1, h'.5.2.trans h.5.2⟩, h'.6.trans h.6, h'.7.trans h.7⟩

/-- A change of bays, exchanges and Collation Buffer leaves the station's own part. -/
theorem ResultFrame.sameStation (h : ResultFrame b s t) : SameStation s t :=
  ⟨h.bayCount, h.seatDebounceMs, h.groups, by rw [h.atu]; exact ⟨rfl, rfl⟩,
    by rw [h.atu]; exact ⟨rfl, rfl⟩, h.slc, h.pending⟩

theorem setBay_raisedAt : RaisedAt b y c d s ((s.setBay b y).raiseFlag b c d) := by
  obtain ⟨h1, h2, h3⟩ := raiseFlag_raised (s := s.setBay b y) (b := b) (c := c) (d := d)
  have hf : SameStation s (s.setBay b y) := ⟨rfl, rfl, rfl, ⟨rfl, rfl⟩, ⟨rfl, rfl⟩, rfl, rfl⟩
  refine ⟨by simp, fun b' h => ?_, sameStation_trans hf raiseFlag_sameStation, by simp, by simp, h1, ?_, h3,
    fun b' c' h => raiseFlag_flag_other h⟩
  · rw [raiseFlag_bay, setBay_bay_other h]
  · rw [h2, setBay_bay_same]

theorem modBay_raisedAt : RaisedAt b (f (s.bay b)) c d s ((s.modBay b f).raiseFlag b c d) :=
  setBay_raisedAt

/-! ## Seating (R1 to R3) -/

theorem exec_sensorCloses : exec (.sensorCloses b) s
    = .next (if s.present b then s.modBay b fun y => y.sensorCloses s.seatDebounceMs else s) := rfl

theorem exec_sensorOpens : exec (.sensorOpens b) s
    = .next (if s.present b then s.modBay b Bay.sensorOpens else s) := rfl

/-- Settles O10, by the seat state. -/
theorem seatSensorEvents : Obligations.SeatSensorEvents := by
  intro b s
  rw [exec_sensorCloses, exec_sensorOpens]
  constructor
  · intro hp
    have hp' : s.present b = true := decide_eq_true hp
    rw [if_pos hp', if_pos hp', modBay_eq, modBay_eq]
    refine ⟨fun h => ?_, fun h => ?_, fun h => ?_⟩ <;>
      simp only [Bay.sensorCloses, Bay.sensorOpens, h, started, Timer.start, Config.removalMs, and_self]
  · intro hp
    have hp' : s.present b = false := decide_eq_false (Nat.not_lt.mpr hp)
    simp [hp']

/-- Settles O11, by the exact state after a completed seating. -/
theorem debounceExpirySeats : Obligations.DebounceExpirySeats := by
  intro b s hs hd
  obtain ⟨h1, h2, h3, h4, h5, h6, h7, -, h9⟩ := setBay_raisedAt (s := s) (b := b)
    (y := (s.bay b).seated) (c := .seated) (d := .none)
  have he : s.completeSeating b = (s.setBay b (s.bay b).seated).raiseFlag b .seated .none := rfl
  rw [← he] at h1 h2 h3 h4 h5 h6 h7 h9
  refine ⟨s.completeSeating b, ?_, h1, h2, h3, h4, h5, h6, h7, h9⟩
  rw [exec_seatDebounceExpiry, if_pos ⟨hs, hd⟩]

/-! ## Supply reports (Table 1.4) -/

theorem startUnlessRunning_eq (t : Option Timer) (ms : Nat) :
    startUnlessRunning t ms = if t.isSome then t else started ms := by
  cases t <;> rfl

/-- Settles O14: each report is a change of its bay, by the power state. -/
theorem supplyReportsRunTheTimers : Obligations.SupplyReportsRunTheTimers := by
  intro b s
  refine ⟨fun hp hg => ?_, fun hon => ⟨?_, ?_, ?_, ?_⟩, fun hoff => ?_⟩
  · change Host.Outcome.next (s.setBay b (s.bay b).outputGoodReport) = _
    rw [Bay.outputGoodReport, if_pos ⟨hp, hg⟩]
    rfl
  · change Host.Outcome.next (s.setBay b (s.bay b).limitEngagedReport) = _
    rw [Bay.limitEngagedReport, if_pos hon, startUnlessRunning_eq]
  · change Host.Outcome.next (s.setBay b (s.bay b).limitReleasedReport) = _
    rw [Bay.limitReleasedReport, if_pos hon]
  · change Host.Outcome.next (s.setBay b (s.bay b).aboveBrownoutReport) = _
    rw [Bay.aboveBrownoutReport, if_pos hon]
  · change Host.Outcome.next (s.setBay b (s.bay b).belowBrownoutReport) = _
    rw [Bay.belowBrownoutReport, if_pos hon, startUnlessRunning_eq]
    rfl
  · have hn : ¬ (s.bay b).power.outputOn = true := by simp [hoff]
    have hp : ¬ ((s.bay b).power = .powering ∧ (s.bay b).outputGood = false) :=
      fun h => hn (by rw [h.1]; rfl)
    have idle {g : Bay → Bay} (hg : g (s.bay b) = s.bay b) :
        Host.Outcome.next (s.modBay b g) = (.next s : Host.Outcome State Fault Refusal) := by
      rw [modBay_eq, hg, setBay_self]
    exact ⟨idle (if_neg hp), idle (if_neg hn), idle (if_neg hn), idle (if_neg hn), idle (if_neg hn)⟩

/-! ## Boot (R11 to R14) -/

/-- Entry to ON at a bay with no step in flight: the link is IDLE, or HOLDING while a result is held. -/
theorem enterOn_eq {n : Nat} (h : y.flight.isStep = false) : y.enterOn n = { y with
    power := .on, earlyReady := false, bootTime := n, bootTimer := none, bootDeadline := none
    token := 0, link := if y.holdsResult then .holding else .idle } := by
  rw [Bay.enterOn, relink_eq, relink_link (y := { y with
    power := .on, earlyReady := false, bootTime := n, bootTimer := none, bootDeadline := none
    token := 0 }) rfl h]
  rfl

theorem exec_keyTimerExpiry (hp : (s.bay b).power = .powering) (hk : (s.bay b).key.isSome = true) :
    exec (.keyTimerExpiry b) s = .next (if (s.bay b).earlyReady then
        (s.modBay b Bay.enterOnEarly).raiseFlag b .ready (.bootTime 0)
      else s.modBay b Bay.enterBooting) := by
  change Host.Outcome.next (if _ then _ else s) = _
  rw [if_pos ⟨hp, hk⟩]

theorem exec_bootDeadlineExpiry {m : Timer} (hp : (s.bay b).power = .booting)
    (hd : (s.bay b).bootDeadline = some m) : exec (.bootDeadlineExpiry b) s
    = .next ((s.modBay b fun y => { y with bootDeadline := none }).raiseFlag b .bootTimeout
        (.deadline m.length)) := by
  change execBootDeadlineExpiry b s = _
  unfold execBootDeadlineExpiry
  rw [hp, hd]

/-- A ready line is routed by the power state (R81, R82). -/
theorem route_ready {text : List Byte} (cut : Bool) (h : isReady text = true) :
    s.route b (.event text cut) = s.readyLine b := by
  simp [State.route, h]

/-- Settles O15: the key timer by the early-ready mark, the deadline, and the ready line by the power
state. -/
theorem keyReleaseAndBootDeadline : Obligations.KeyReleaseAndBootDeadline := by
  refine ⟨fun b s hp hk => ⟨fun he => ?_, fun he hf => ?_⟩, fun b s m hp hd => ?_,
    fun b s text cut hr => ⟨fun hp => ?_, fun n hp hn hf => ?_⟩⟩
  · rw [exec_keyTimerExpiry hp hk, he]; rfl
  · obtain ⟨h1, h2, h3, h4, h5, h6, -, h8, h9⟩ := modBay_raisedAt (s := s) (b := b)
      (f := Bay.enterOnEarly) (c := .ready) (d := .bootTime 0)
    refine ⟨_, by rw [exec_keyTimerExpiry hp hk, he]; rfl, ?_, h2, h3, h4, h5, h6, h8, h9⟩
    exact h1.trans (enterOn_eq hf)
  · obtain ⟨h1, h2, h3, h4, h5, h6, h7, h8, h9⟩ := modBay_raisedAt (s := s) (b := b)
      (f := fun y => { y with bootDeadline := none }) (c := .bootTimeout) (d := .deadline m.length)
    exact ⟨_, exec_bootDeadlineExpiry hp hd, h1, h2, h3, h4, h5, h6, h7, h8, h9⟩
  · rw [route_ready cut hr, State.readyLine, hp]
    rfl
  · have ht : s.route b (.event text cut)
        = (s.modBay b fun y => y.enterOn n).raiseFlag b .ready (.bootTime n) := by
      rw [route_ready cut hr, State.readyLine, hp]
      simp only [State.completeBoot, hn, Option.getD_some]
    obtain ⟨h1, h2, h3, h4, h5, h6, h7, h8, h9⟩ := modBay_raisedAt (s := s) (b := b)
      (f := fun y => y.enterOn n) (c := .ready) (d := .bootTime n)
    rw [ht]
    have hb := enterOn_eq (n := n) hf
    exact ⟨h1.trans hb, h2, h3, h4, h5, h6, by rw [h7, hb], h8, h9⟩

end Sys2Proof.Machine
end

section
/-! PROOF. Abnormal ends behind the completion of due windows (R3, R18, R20, R116, Table 7.9): the finals that a
bay's end of steps forms are those of the state before its due windows completed. -/

namespace Sys2Proof.Machine

open Sys2Proof.Claims

variable {s t v : State} {b : BayId} {y z : Bay} {cause : Outcome} {r : Result} {rs : List Result}
  {st : Step} {rp : Reply}

/-! ## Handovers read the exchange table and the Collation Buffer alone -/

theorem handOver_congr (hx : v.exchanges = s.exchanges) (hc : v.clb = s.clb) :
    (v.handOver r).2 = (s.handOver r).2
    ∧ (v.handOver r).1.exchanges = (s.handOver r).1.exchanges
    ∧ (v.handOver r).1.clb = (s.handOver r).1.clb := by
  unfold State.handOver State.collate State.modExchange
  simp only [hx, hc]
  split
  · exact ⟨rfl, rfl, rfl⟩
  · split <;> exact ⟨rfl, rfl, rfl⟩

theorem handOvers_congr (hx : v.exchanges = s.exchanges) (hc : v.clb = s.clb) :
    (handOvers rs v).2 = (handOvers rs s).2
    ∧ (handOvers rs v).1.exchanges = (handOvers rs s).1.exchanges
    ∧ (handOvers rs v).1.clb = (handOvers rs s).1.clb := by
  induction rs generalizing s v with
  | nil => exact ⟨rfl, hx, hc⟩
  | cons r rs ih =>
    obtain ⟨h2, hx', hc'⟩ := handOver_congr (r := r) hx hc
    obtain ⟨i2, ix, ic⟩ := ih hx' hc'
    exact ⟨congrArg₂ List.cons h2 i2, ix, ic⟩

/-! ## The finals of an end of steps -/

theorem endedSteps_flight (he : EndedSteps cause b s t) :
    (t.bay b).flight = (s.bay b).flight.after (handOvers (endedFinals s b cause) s).2 := by
  rw [he.flight]
  cases (s.bay b).flight <;> rfl

theorem endedSteps_of_after (hx : t.exchanges = (handOvers (endedFinals s b cause) s).1.exchanges)
    (hc : t.clb = (handOvers (endedFinals s b cause) s).1.clb)
    (hf : (t.bay b).flight = (s.bay b).flight.after (handOvers (endedFinals s b cause) s).2)
    (hp : (t.bay b).places = placesAfter (s.bay b).places
      ((handOvers (endedFinals s b cause) s).2.drop (flightFinals s b cause).length)) :
    EndedSteps cause b s t := by
  refine ⟨hx, hc, ?_, hp⟩
  rw [hf]
  cases (s.bay b).flight <;> rfl

theorem queuedFinals_congr (hx : v.exchanges = s.exchanges)
    (hp : (v.bay b).places = (s.bay b).places) : queuedFinals v b cause = queuedFinals s b cause := by
  rw [queuedFinals_eq, queuedFinals_eq, hp,
    placeFinal?_of_windowOf fun u => windowOf_of_exchanges hx u]

/-- A flight slot with the same step, but for its window, or with the same rest. -/
def Flight.alike (f g : Flight) : Prop :=
  match f with
  | .step st => ∃ w, g = .step { st with window := w }
  | .empty => g = .empty
  | .held u => g = .held u

theorem Flight.alike.refl (f : Flight) : f.alike f := by
  cases f with
  | step st => exact ⟨st.window, rfl⟩
  | empty | held u => rfl

theorem Flight.alike.after {f g : Flight} (h : f.alike g) (ms : List Bool) : g.after ms = f.after ms := by
  cases f with
  | step st => obtain ⟨w, rfl⟩ := h; rfl
  | empty | held u => rw [show g = _ from h]

theorem Flight.alike.isStep {f g : Flight} (h : f.alike g) : g.isStep = f.isStep := by
  cases f with
  | step st => obtain ⟨w, rfl⟩ := h; rfl
  | empty | held u => rw [show g = _ from h]

/-- Two states in which the end of a bay's steps does the same: the window of the step in flight may
have been recorded meanwhile. -/
structure EndsAlike (b : BayId) (s v : State) : Prop where
  exchanges : v.exchanges = s.exchanges
  clb       : v.clb = s.clb
  places    : (v.bay b).places = (s.bay b).places
  flight    : (s.bay b).flight.alike (v.bay b).flight
  window    : ∀ st st', (s.bay b).flight = .step st → (v.bay b).flight = .step st' →
                flightWindow v b st' = flightWindow s b st

theorem EndsAlike.finals (h : EndsAlike b s v) :
    flightFinals v b cause = flightFinals s b cause ∧ endedFinals v b cause = endedFinals s b cause := by
  have hf : flightFinals v b cause = flightFinals s b cause := by
    have hal := h.flight
    have hw := h.window
    unfold flightFinals
    cases hfl : (s.bay b).flight with
    | step st =>
      rw [hfl] at hal
      obtain ⟨w, hw'⟩ := hal
      have hrp : replyOrCause { st with window := w } cause = replyOrCause st cause := rfl
      simp only [hw', hw st _ hfl hw', hrp]
      rfl
    | empty | held u =>
      rw [hfl] at hal
      rw [show (v.bay b).flight = _ from hal]
  exact ⟨hf, by rw [endedFinals, endedFinals, hf, queuedFinals_congr h.exchanges h.places]⟩

/-- Ended from a state that ends alike is ended from here. -/
theorem EndsAlike.endedSteps (h : EndsAlike b s v) (he : EndedSteps cause b v t) :
    EndedSteps cause b s t := by
  obtain ⟨hf, hfin⟩ := h.finals (cause := cause)
  obtain ⟨h2, hx, hc⟩ := handOvers_congr (rs := endedFinals s b cause) h.exchanges h.clb
  refine endedSteps_of_after ?_ ?_ ?_ ?_
  · rw [he.table, hfin, hx]
  · rw [he.buffer, hfin, hc]
  · rw [endedSteps_flight he, hfin, h2, h.flight.after]
  · rw [he.places, hfin, h2, hf, h.places]

/-- Ended from the state after the step in flight has formed its final is ended from here. -/
theorem endedSteps_of_formed (hf : (s.bay b).flight = .step st)
    (hr : finalResult b st (replyOrCause st cause) (flightWindow s b st) = r)
    (hx : v.exchanges = (s.handOver r).1.exchanges) (hc : v.clb = (s.handOver r).1.clb)
    (hp : (v.bay b).places = (s.bay b).places)
    (hv : (v.bay b).flight = if (s.handOver r).2 then .empty else .held st.tag)
    (he : EndedSteps cause b v t) : EndedSteps cause b s t := by
  have hfs : flightFinals s b cause = [r] := by simp only [flightFinals, hf, hr]
  have hfv : flightFinals v b cause = [] := by
    unfold flightFinals
    rw [hv]
    cases (s.handOver r).2 <;> rfl
  have hq : queuedFinals v b cause = queuedFinals s b cause := by
    rw [queuedFinals_eq, queuedFinals_eq, hp, placeFinal?_of_windowOf fun u =>
      (windowOf_of_exchanges hx u).trans (windowOf_handOver u)]
  have hev : endedFinals v b cause = queuedFinals s b cause := by rw [endedFinals, hfv, hq]; rfl
  have hes : endedFinals s b cause = r :: queuedFinals s b cause := by rw [endedFinals, hfs]; rfl
  obtain ⟨h2, hx', hc'⟩ := handOvers_congr (rs := queuedFinals s b cause) hx hc
  refine endedSteps_of_after ?_ ?_ ?_ ?_
  · rw [he.table, hev, hes, hx']; rfl
  · rw [he.buffer, hev, hes, hc']; rfl
  · rw [endedSteps_flight he, hev, hes, hv, hf, handOvers]
    cases (s.handOver r).2 <;> rfl
  · rw [he.places, hev, hes, hfv, hfs, hp, h2]; rfl

/-! ## What goes before an abnormal end -/

theorem completeMonitor_endsAlike : EndsAlike b s (s.completeMonitor b) := by
  obtain ⟨-, -, -, hx, hc, -, -⟩ := completeMonitor_frame (s := s) (b := b)
  have hb := completeMonitor_bay (s := s) (b := b) b
  have hacc : ((s.completeMonitor b).bay b).mu.exchangeAcc = (s.bay b).mu.exchangeAcc := by
    rw [hb]; split <;> rfl
  have hfl : ((s.completeMonitor b).bay b).flight = (s.bay b).flight := by rw [hb]; split <;> rfl
  refine ⟨hx, hc, by rw [hb]; split <;> rfl, by rw [hfl]; exact .refl _, fun st st' h h' => ?_⟩
  rw [hfl, h] at h'
  obtain rfl : st = st' := by injection h'
  unfold flightWindow neverOpened
  rw [hacc]
  simp only [windowOf_of_exchanges hx]

theorem due_running {a : Accumulator} (h : a.due = true) :
    a.state = .running ∧ a.length ≤ a.elapsed := by
  simpa [Accumulator.due] using h

/-- A step that keeps a summary handed to it: the one whose window is OPEN. -/
def Step.recorded (st : Step) (w : WindowSummary) : Step :=
  match st.window with
  | .opened => { st with window := .done w }
  | .none | .scheduled | .done _ | .notOpened => st

theorem recordSummary_flight (w : WindowSummary) : (y.recordSummary w).flight = match y.flight with
    | .step st => .step (st.recorded w)
    | .empty => .empty
    | .held u => .held u := by
  unfold Bay.recordSummary Step.recorded
  cases hf : y.flight with
  | step st => cases hw : st.window <;> simp only [hf, hw]
  | empty | held u => exact hf

theorem recorded_window (st : Step) (w : WindowSummary) : ∃ k, st.recorded w = { st with window := k } := by
  unfold Step.recorded
  cases st.window <;> exact ⟨_, rfl⟩

theorem exchangeCompleted_flight : y.exchangeCompleted.flight = match y.flight with
    | .step st => .step (st.recorded y.mu.exchangeAcc.completed)
    | .empty => .empty
    | .held u => .held u :=
  recordSummary_flight _

theorem exchangeCompleted_acc : y.exchangeCompleted.mu.exchangeAcc = y.mu.exchangeAcc.freed := by
  unfold Bay.exchangeCompleted Bay.recordSummary
  split
  · split <;> rfl
  all_goals rfl

theorem exchangeCompleted_alike (h : (s.bay b).mu.exchangeAcc.due = true) :
    EndsAlike b s (s.modBay b Bay.exchangeCompleted) := by
  obtain ⟨hr, hl⟩ := due_running h
  have hflight := exchangeCompleted_flight (y := s.bay b)
  refine ⟨rfl, rfl, ?_, ?_, fun st st' hst hst' => ?_⟩
  · rw [modBay_bay_same]
    obtain ⟨f, a, he⟩ := exchangeCompleted_bay (s.bay b)
    rw [he]
  · rw [modBay_bay_same, hflight]
    cases (s.bay b).flight with
    | step st =>
      obtain ⟨k, hk⟩ := recorded_window st (s.bay b).mu.exchangeAcc.completed
      exact ⟨k, congrArg Flight.step hk⟩
    | empty | held u => rfl
  · rw [modBay_bay_same, hflight, hst] at hst'
    obtain rfl : st.recorded _ = st' := by injection hst'
    unfold flightWindow
    rw [modBay_bay_same, exchangeCompleted_acc]
    unfold Step.recorded
    cases hw : st.window <;> simp only [hw, hr, hl, if_true] <;> rfl

/-- A step whose window needs no waiting brings that window to its final. -/
theorem summary_flightWindow (hw : st.window ≠ .scheduled ∧ st.window ≠ .opened) :
    st.window.summary (s.windowOf st.tag) = flightWindow s b st := by
  unfold flightWindow neverOpened
  cases h : st.window <;> simp_all [StepWindow.summary, notOpenedSummary]

theorem finalOf_ready (hr : st.reply = some rp) (hw : st.window ≠ .scheduled ∧ st.window ≠ .opened) :
    s.finalOf b st rp = finalResult b st (replyOrCause st cause) (flightWindow s b st) := by
  have hrp : replyOrCause st cause = rp := by simp only [replyOrCause, hr]
  simp only [State.finalOf, finalResult, summary_flightWindow (s := s) (b := b) hw, hrp]

/-- A formation happens where the reply phase is over and no window is waited for, and nowhere else. -/
theorem formResult_cases : s.formResult b = s ∨ ∃ st rp, (s.bay b).flight = .step st
    ∧ st.reply = some rp ∧ (st.window ≠ .scheduled ∧ st.window ≠ .opened)
    ∧ s.formResult b = (s.formFlight b st rp).modBay b Bay.relink := by
  cases hf : (s.bay b).flight with
  | step st =>
    cases hr : st.reply with
    | none => left; simp only [State.formResult, hf, hr]
    | some rp =>
      by_cases hw : st.window ≠ .scheduled ∧ st.window ≠ .opened
      · exact .inr ⟨st, rp, rfl, hr, hw, formResult_ready hf hr hw⟩
      · left
        unfold State.formResult
        simp only [hf, hr]
        cases hk : st.window <;> simp_all
  | empty | held u => left; simp only [State.formResult, hf]

theorem endedSteps_of_formResult (he : EndedSteps cause b (s.formResult b) t) :
    EndedSteps cause b s t := by
  rcases formResult_cases (s := s) (b := b) with h | ⟨st, rp, hf, hr, hw, h⟩
  · rwa [h] at he
  · rw [h, formFlight_relink_eq] at he
    refine endedSteps_of_formed (v := (handOvers [s.finalOf b st rp] s).1.setBay b _) hf
      (finalOf_ready hr hw).symm rfl rfl ?_ ?_ he
    · rw [setBay_bay_same, relink_eq]; rfl
    · rw [setBay_bay_same, relink_eq]; rfl

theorem endedSteps_of_completeExchange (he : EndedSteps cause b (s.completeExchange b) t) :
    EndedSteps cause b s t := by
  unfold State.completeExchange at he
  split at he
  · next h => exact (exchangeCompleted_alike h).endedSteps (endedSteps_of_formResult he)
  · exact he

theorem closedWindow_of_free (h : y.mu.exchangeAcc.state = .free) : y.closedWindow st = st.window := by
  unfold Bay.closedWindow
  rw [Accumulator.closing_none.mpr h]
  cases st.window <;> rfl

/-- A supply-off closes the window of the step in flight as its abnormal end would. -/
theorem supplyOff_endsAlike : EndsAlike b s (s.modBay b Bay.supplyOff) := by
  by_cases h : (s.bay b).power.outputOn = true
  · obtain ⟨k, l, hb⟩ := supplyOff_explicit h
    refine ⟨rfl, rfl, ?_, ?_, fun st st' hst hst' => ?_⟩
    · rw [modBay_bay_same, hb]
    · rw [modBay_bay_same, hb]
      simp only [Bay.closedFlight]
      cases (s.bay b).flight with
      | step st => exact ⟨_, rfl⟩
      | empty | held u => rfl
    · rw [modBay_bay_same, hb] at hst'
      simp only [closedFlight_step_tag hst] at hst'
      obtain rfl : { st with window := (s.bay b).closedWindow st } = st' := by injection hst'
      have hacc : ((s.modBay b Bay.supplyOff).bay b).mu.exchangeAcc = (s.bay b).mu.exchangeAcc.freed := by
        rw [modBay_bay_same, hb]; rfl
      rw [← closedWindow_summary (s := s), ← closedWindow_summary (s := s.modBay b Bay.supplyOff),
        closedWindow_of_free (y := (s.modBay b Bay.supplyOff).bay b) (by rw [hacc]; rfl)]
      rfl
  · rw [modBay_eq, Bay.supplyOff, if_neg h, setBay_self]
    exact ⟨rfl, rfl, rfl, .refl _, fun st st' h h' => by rw [h] at h'; injection h' with h'; rw [h']⟩

theorem endedSteps_of_supplyOff (he : EndedSteps cause b (s.supplyOff b) t) : EndedSteps cause b s t := by
  rw [supplyOff_eq_beforeOff] at he
  have he' := supplyOff_endsAlike.endedSteps he
  unfold State.beforeOff at he'
  split at he'
  · exact completeMonitor_endsAlike.endedSteps (endedSteps_of_completeExchange he')
  · exact he'

/-- What comes after the end of the steps leaves them ended. -/
theorem endedSteps_congr (he : EndedSteps cause b s v) (hx : t.exchanges = v.exchanges)
    (hc : t.clb = v.clb) (hf : (t.bay b).flight = (v.bay b).flight)
    (hp : (t.bay b).places = (v.bay b).places) : EndedSteps cause b s t :=
  ⟨hx.trans he.table, hc.trans he.buffer, hf.trans he.flight, hp.trans he.places⟩

/-! ## What completes before a supply-off keeps -/

theorem completeMonitor_sameStation : SameStation s (s.completeMonitor b) := by
  unfold State.completeMonitor
  have hm {f : Bay → Bay} : SameStation s (s.modBay b f) := modBay_resultFrame.sameStation
  simp only
  split
  · split
    · exact sameStation_trans hm raiseFlag_sameStation
    · exact hm
  · exact (ResultFrame.refl b s).sameStation

theorem completeMonitor_onlyBay : OnlyBay b s (s.completeMonitor b) := fun b' h => by
  rw [completeMonitor_bay, if_neg fun hc => h hc.1]

/-- A supply-off with the end of every step keeps the station's own part and the other bays. -/
theorem supplyOff_sameStation : SameStation s (s.supplyOff b) := by
  unfold State.supplyOff
  split
  · exact sameStation_trans (sameStation_trans completeMonitor_sameStation
      (completeExchange_frame (b := b)).sameStation) (modBay_resultFrame (b := b)).sameStation
  · exact (ResultFrame.refl b s).sameStation

theorem supplyOff_onlyBay : OnlyBay b s (s.supplyOff b) := by
  intro b' h
  unfold State.supplyOff
  split
  · rw [modBay_bay_other h, (completeExchange_frame (b := b)).others b' h]
    exact completeMonitor_onlyBay b' h
  · rfl

/-- No flag changes but BAND of the bay, and that only where a monitor window is due there. -/
theorem supplyOff_flag {b' : BayId} {c : AttClass} (h : (b', c) ≠ (b, AttClass.band)
    ∨ ¬ ((s.bay b).power.outputOn = true ∧ (s.bay b).mu.monitorAcc.due = true)) :
    (s.supplyOff b).flag b' c = s.flag b' c := by
  unfold State.supplyOff
  split
  · next hon =>
    rw [modBay_flag, flag_of_atu (completeExchange_frame (b := b)).atu]
    rcases h with h | h
    · exact completeMonitor_flag h
    · rw [completeMonitor_eq_of_not_due (by simpa [hon] using h)]
  · rfl

theorem beforeOff_mu : ∃ f d l m, (s.beforeOff b).bay b
      = { s.bay b with flight := f, windowDelay := d, link := l, mu := m }
    ∧ m.lowOffset = (s.bay b).mu.lowOffset ∧ m.highOffset = (s.bay b).mu.highOffset := by
  unfold State.beforeOff
  split
  · obtain ⟨f, d, l, a, h⟩ := completeExchange_bay (s := s.completeMonitor b) (b := b)
    rw [h, completeMonitor_bay]
    split <;> exact ⟨_, _, _, _, rfl, rfl, rfl⟩
  · exact ⟨_, _, _, _, rfl, rfl, rfl⟩

/-! ## A bay whose supply is off and whose steps have ended -/

/-- A powered bay after the supply-off, the end of every step and the transition to a lower power state
(R3, R18, R20). -/
theorem wentDown_powerDown {ms : List Bool} {p : Power} (h : (s.bay b).power.outputOn = true) :
    WentDown p (s.bay b) ((((s.beforeOff b).bay b).supplyOff.stepsEnded ms).powerDown p)
    ∧ (((s.beforeOff b).bay b).supplyOff.stepsEnded ms).seat = (s.bay b).seat
    ∧ (((s.beforeOff b).bay b).supplyOff.stepsEnded ms).removal = (s.bay b).removal := by
  obtain ⟨f, d, l, m, hb, hlo, hhi⟩ := beforeOff_mu (s := s) (b := b)
  generalize hy : (s.beforeOff b).bay b = y at hb
  have hon : y.power.outputOn = true := by rw [hb]; exact h
  obtain ⟨hout, hpk, hvk, hsamp, hmon, hoob, hsend, hasm, hseating, hvar, hboot, hlow, hhigh, hstray,
    hgarb, hseat, hrem, -⟩ := supplyOff_bay hon
  generalize y.supplyOff = z at *
  refine ⟨⟨rfl, hout, ⟨hpk, hvk⟩, rfl, rfl, ⟨rfl, rfl, rfl, rfl, rfl, rfl⟩, flight_after_no_step _ _,
    placesAfter_no_step _ _, ⟨hsamp, hmon, hoob⟩, ⟨hsend, hasm⟩, ?_⟩, ?_, ?_⟩
  · refine ⟨hseating.trans ?_, hvar.trans ?_, hboot.trans ?_, hlow.trans ?_, hhigh.trans ?_,
      hstray.trans ?_, hgarb.trans ?_⟩
    case refine_4 => rw [hb]; exact hlo
    case refine_5 => rw [hb]; exact hhi
    all_goals rw [hb]
  · exact hseat.trans (by rw [hb])
  · exact hrem.trans (by rw [hb])

/-- The bay after the supply-off and the end of every step. -/
theorem supplyOff_endSteps_bay : ((s.supplyOff b).endSteps b cause).bay b
    = ((s.beforeOff b).bay b).supplyOff.stepsEnded
        (handOvers (endedFinals (s.supplyOff b) b cause) (s.beforeOff b)).2 := by
  rw [supplyOff_endSteps, setBay_bay_same]

theorem supplyOff_endSteps_sameStation : SameStation s ((s.supplyOff b).endSteps b cause) :=
  sameStation_trans supplyOff_sameStation (endSteps_frame (b := b)).sameStation

theorem supplyOff_endSteps_onlyBay : OnlyBay b s ((s.supplyOff b).endSteps b cause) := fun b' h =>
  ((endSteps_frame (b := b)).others b' h).trans (supplyOff_onlyBay b' h)

theorem supplyOff_endSteps_flag {b' : BayId} {c : AttClass} (h : (b', c) ≠ (b, AttClass.band)
    ∨ ¬ ((s.bay b).power.outputOn = true ∧ (s.bay b).mu.monitorAcc.due = true)) :
    ((s.supplyOff b).endSteps b cause).flag b' c = s.flag b' c :=
  (flag_of_atu (endSteps_frame (b := b)).atu).trans (supplyOff_flag h)

theorem supplyOff_endedSteps : EndedSteps cause b s ((s.supplyOff b).endSteps b cause) :=
  endedSteps_of_supplyOff endedSteps_endSteps

theorem powerDown_keeps (y : Bay) (p : Power) : (y.powerDown p).flight = y.flight
    ∧ (y.powerDown p).places = y.places ∧ (y.powerDown p).seat = y.seat
    ∧ (y.powerDown p).removal = y.removal := ⟨rfl, rfl, rfl, rfl⟩

/-- What the station is after a supply-off, the end of every step, and a transition of the bay with a raise
of class `c`. -/
theorem ended_raisedAt {k : Outcome} {c : AttClass} {d : ClassData}
    (h : RaisedAt b y c d ((s.supplyOff b).endSteps b k) t)
    (hf : y.flight = (((s.supplyOff b).endSteps b k).bay b).flight)
    (hp : y.places = (((s.supplyOff b).endSteps b k).bay b).places) :
    EndedSteps k b s t ∧ OnlyBay b s t ∧ SameStation s t
    ∧ ∀ b' c', (b', c') ≠ (b, c) → (b', c') ≠ (b, AttClass.band) → t.flag b' c' = s.flag b' c' := by
  refine ⟨endedSteps_congr supplyOff_endedSteps h.exchanges h.clb ?_ ?_, fun b' hb => ?_,
    sameStation_trans supplyOff_endSteps_sameStation h.station, fun b' c' hc hc' => ?_⟩
  · rw [h.bay, hf]
  · rw [h.bay, hp]
  · exact (h.others b' hb).trans (supplyOff_endSteps_onlyBay b' hb)
  · exact (h.flags b' c' hc).trans (supplyOff_endSteps_flag (.inl hc'))

/-! ## Trips (R10, R17, R18) -/

theorem exec_trip {c : Instr} {k : TripCause}
    (h : (c = .riseTimerExpiry b ∧ k = .riseFail ∧ (s.bay b).power = .powering
        ∧ (s.bay b).rise.isSome = true)
      ∨ (c = .limitTripTimerExpiry b ∧ k = .limit ∧ (s.bay b).power.outputOn = true
        ∧ (s.bay b).limitTrip.isSome = true)
      ∨ (c = .brownoutTripTimerExpiry b ∧ k = .brownout ∧ (s.bay b).power.outputOn = true
        ∧ (s.bay b).brownoutTrip.isSome = true)) :
    (s.bay b).power.outputOn = true ∧ exec c s = .next (s.trip b k) := by
  rcases h with ⟨rfl, rfl, hp, ht⟩ | ⟨rfl, rfl, hp, ht⟩ | ⟨rfl, rfl, hp, ht⟩
  · exact ⟨by rw [hp]; rfl, congrArg Host.Outcome.next (if_pos ⟨hp, ht⟩)⟩
  · exact ⟨hp, congrArg Host.Outcome.next (if_pos ⟨hp, ht⟩)⟩
  · exact ⟨hp, congrArg Host.Outcome.next (if_pos ⟨hp, ht⟩)⟩

theorem trip_raisedAt {k : TripCause} :
    RaisedAt b ((((s.supplyOff b).endSteps b .powerLost).bay b).powerDown .tripped) .trip (.cause k)
      ((s.supplyOff b).endSteps b .powerLost) (s.trip b k) := by
  unfold State.trip
  exact modBay_raisedAt (f := fun y => y.powerDown .tripped)

/-- A powered bay after its supply-off and the end of its steps, gone down. -/
theorem wentDown_ended {p : Power} (h : (s.bay b).power.outputOn = true) :
    WentDown p (s.bay b) ((((s.supplyOff b).endSteps b cause).bay b).powerDown p)
    ∧ (((s.supplyOff b).endSteps b cause).bay b).seat = (s.bay b).seat
    ∧ (((s.supplyOff b).endSteps b cause).bay b).removal = (s.bay b).removal := by
  rw [supplyOff_endSteps_bay]
  exact wentDown_powerDown (ms := (handOvers (endedFinals (s.supplyOff b) b cause) (s.beforeOff b)).2) h

/-- Settles O13, by the supply-off, the end of every step and the raise that a trip is. -/
theorem tripTimersTrip : Obligations.TripTimersTrip := by
  intro b s c cause h
  obtain ⟨hon, he⟩ := exec_trip h
  have hr := trip_raisedAt (s := s) (b := b) (k := cause)
  obtain ⟨hw, hseat, hrem⟩ := wentDown_ended (p := .tripped) (cause := .powerLost) hon
  obtain ⟨hdf, hdp, hds, hdr⟩ :=
    powerDown_keeps (((s.supplyOff b).endSteps b .powerLost).bay b) .tripped
  obtain ⟨hend, hother, hstation, hflags⟩ := ended_raisedAt hr hdf hdp
  have hkept := hw.kept.1
  rw [← hr.bay] at hw hds hdr hkept
  exact ⟨s.trip b cause, he, hw, hend, hds.trans hseat, hdr.trans hrem, hother, hstation, hr.raised,
    (hr.seating.trans (congrArg Bay.seating hr.bay).symm).trans hkept, hr.data, hflags⟩

/-! ## Removal (R3) -/

/-- A bay whose phone is removed (R3). -/
def Bay.vacated (y : Bay) : Bay :=
  { y.powerDown .none with seat := .vacant, removal := none, powerKey := false, volumeKey := false }

theorem remove_raisedAt :
    RaisedAt b ((((s.supplyOff b).endSteps b .removed).bay b).vacated) .unseated
      (.live (s.bay b).power.outputOn) ((s.supplyOff b).endSteps b .removed) (s.remove b) :=
  modBay_raisedAt (f := Bay.vacated)

theorem vacated_keeps (y : Bay) : y.vacated.flight = y.flight ∧ y.vacated.places = y.places
    ∧ y.vacated.seating = y.seating ∧ y.vacated.mu = y.mu := ⟨rfl, rfl, rfl, rfl⟩

theorem vacated_rest (y : Bay) : y.vacated.seat = .vacant ∧ y.vacated.power = .none
    ∧ y.vacated.link = .down ∧ y.vacated.removal = none := ⟨rfl, rfl, rfl, rfl⟩

/-- A bay whose output is off already keeps its unit but for the exchange window when its steps end. -/
theorem endSteps_kept : ((s.endSteps b cause).bay b).seating = (s.bay b).seating
    ∧ ((s.endSteps b cause).bay b).mu.sampling = (s.bay b).mu.sampling
    ∧ ((s.endSteps b cause).bay b).mu.calibration = (s.bay b).mu.calibration := by
  obtain ⟨fl, pl, wd, acc, hw⟩ := (endSteps_bay (s := s) (b := b) (cause := cause)).1
  rw [hw]
  exact ⟨rfl, rfl, rfl⟩

theorem wentDown_vacated (h : WentDown .none y (z.powerDown .none)) : WentDown .none y z.vacated :=
  ⟨rfl, h.output, ⟨rfl, rfl⟩, rfl, rfl, ⟨rfl, rfl, rfl, rfl, rfl, rfl⟩, h.flight, h.queue, h.unit, h.line,
    h.kept⟩

/-- The seating number after a supply-off and the end of every step. -/
theorem supplyOff_endSteps_seating : (((s.supplyOff b).endSteps b cause).bay b).seating
    = (s.bay b).seating := by
  obtain ⟨f, d, l, m, hb⟩ := beforeOff_bay (s := s) (b := b)
  rw [endSteps_kept.1, supplyOff_eq_beforeOff, modBay_bay_same, hb]
  generalize hy : ({ s.bay b with flight := f, windowDelay := d, link := l, mu := m } : Bay) = y
  have hk : y.supplyOff.seating = y.seating := by
    by_cases h : y.power.outputOn = true
    · obtain ⟨-, -, -, -, -, -, -, -, hs, -⟩ := supplyOff_bay h
      exact hs
    · rw [Bay.supplyOff, if_neg h]
  rw [hk, ← hy]

/-- Settles O12, by the supply-off, the end of every step and the raise that a removal is. -/
theorem removalEndsTheSeating : Obligations.RemovalEndsTheSeating := by
  intro b s hs hd
  have hr := remove_raisedAt (s := s) (b := b)
  have hseating := supplyOff_endSteps_seating (s := s) (b := b) (cause := .removed)
  obtain ⟨-, hfl, hpl, -⟩ := endSteps_bay (s := s.supplyOff b) (b := b) (cause := .removed)
  obtain ⟨hvf, hvp, hvs, hvm⟩ := vacated_keeps (((s.supplyOff b).endSteps b .removed).bay b)
  obtain ⟨hv1, hv2, hv3, hv4⟩ := vacated_rest (((s.supplyOff b).endSteps b .removed).bay b)
  obtain ⟨hend, hother, hstation, hflags⟩ := ended_raisedAt hr hvf hvp
  have hexec : exec (.removalTimerExpiry b) s = .next (s.remove b) :=
    congrArg Host.Outcome.next (if_pos ⟨hs, hd⟩)
  have hdown (h : (s.bay b).power.outputOn = true) :
      WentDown .none (s.bay b) ((s.remove b).bay b) := by
    rw [hr.bay]; exact wentDown_vacated (wentDown_ended h).1
  have hrs := hr.seating
  rw [← hr.bay] at hv1 hv2 hv3 hv4 hvf hvp hvs hvm hrs
  refine ⟨s.remove b, hexec, hv1, hv2, hv3, hv4, hvs.trans hseating, hdown, fun h => ?_, ?_, ?_, hend,
    hother, hstation, hr.raised, hrs.trans (hvs.trans hseating), hr.data, hflags⟩
  · have hoff : s.supplyOff b = s := by rw [State.supplyOff, if_neg (by simp [h])]
    rw [hvm, hoff]
    exact endSteps_kept.2
  · rw [hvp]; exact hpl
  · rw [hvf]; exact hfl

end Sys2Proof.Machine
end

section
/-! PROOF. The requests of chapters 1 and 2 at their taking: POWER_ON, POWER_OFF and ZERO; and the reboot. -/

namespace Sys2Proof.Machine

open Sys2Proof.Claims

variable {s t v : State} {b b' : BayId} {y z : Bay} {cause : Outcome} {tag : Tag} {p : List Byte}
  {k : Byte} {g : Target} {S A : BaySet} {judge j : BayId → Option Reason}
  {act : BaySet → State → State}

/-! ## Requests taken (R87 to R89, R164) -/

/-- A multi-bay request whose target resolves is decided bay by bay and answered with its verdicts. -/
theorem multiBay_resolved (hS : s.resolve g = .ok S)
    (hj : (fun b => if s.stale g.pins b then some .stale else judge b) = j) :
    (atTaking s).multiBay k tag g judge act
      = (act (verdictsOf S j).accepted (atTaking s)).answer k tag (verdictsOf S j).status
          (.verdicts (verdictsOf S j)) := by
  have hr : (atTaking s).resolve g = .ok S := hS
  subst hj
  simp only [State.multiBay, hr]
  rfl

theorem accepted_iff : inSet (verdictsOf S j).accepted b = true ↔ inSet S b = true ∧ j b = none := by
  rw [inSet_accepted, Bool.and_eq_true, Option.isNone_iff_eq_none]

theorem not_accepted_of (h : inSet S b = false ∨ j b ≠ none) :
    inSet (verdictsOf S j).accepted b = false := by
  rw [Bool.eq_false_iff, ne_eq, accepted_iff]
  rintro ⟨hS, hj⟩
  rcases h with h | h
  · simp [hS] at h
  · exact h hj

@[simp] theorem atTaking_bay : (atTaking s).bay b = s.bay b := rfl

/-! ## ZERO (R34, R35) -/

/-- Settles O18: the per-bay checks are those of Table 2.5, and the pass is one change of every bay. -/
theorem zeroStartsTheAccepted : Obligations.ZeroStartsTheAccepted := by
  intro tag p s g S ha ht hp hm hS judge
  have hj : (fun b => if s.stale g.pins b then some .stale else ((atTaking s).bay b).judgeZero)
      = judge := rfl
  change Host.Outcome.next (s.arrives 0x08 tag p (State.requestZero tag p)) = _
  rw [arrives_atTaking ha, State.requestZero, hp, checked_passed ht hm, multiBay_resolved hS hj]
  simp only [State.zeroBays, inSet_accepted]
  rfl

/-! ## POWER_ON (R8, R9) -/

/-- The unit at a start of sampling (R23, R28, R55, R64). -/
theorem startSampling_unit (m : Mu) (q : Params) :
    (m.startSampling q).sampling = .sampling ∧ (m.startSampling q).blanking = 2
    ∧ (m.startSampling q).range = q.rangeMode.startRange
    ∧ (m.startSampling q).settleTimer = (if q.settleMs = 0 then none else started q.settleMs)
    ∧ ((m.startSampling q).periodSettle = true ↔ q.settleMs ≠ 0)
    ∧ (q.monitorOn = true → (m.startSampling q).monitorState = .watching
        ∧ (m.startSampling q).outOfBand = 0
        ∧ (m.startSampling q).monitorAcc = { Accumulator.cleared with
            state := .starting, length := q.monitorWindow })
    ∧ (q.monitorOn = false → (m.startSampling q).monitorState = m.monitorState
        ∧ (m.startSampling q).monitorAcc = m.monitorAcc) := by
  unfold Mu.startSampling Mu.settleTrigger
  by_cases hz : q.settleMs = 0 <;> cases hon : q.monitorOn <;>
    simp [hz, Mu.watch, Accumulator.opening, started, Timer.start] <;> rfl

/-- The checks of Table 1.5 in their order. -/
theorem judgePowerOn_eq (y : Bay) : y.judgePowerOn =
    if y.seat ≠ .seated then some .notSeated
    else if y.power.outputOn then some .alreadyOn
    else if y.power = .tripped then some .tripped
    else if y.mu.sampling = .calibrating then some .busy
    else none := by
  unfold Bay.judgePowerOn
  cases hs : y.seat <;> cases hp : y.power <;> simp [Power.outputOn]

/-- Settles O16: the checks in order, and the entry to POWERING of every accepted bay. -/
theorem powerOnPowersTheAccepted : Obligations.PowerOnPowersTheAccepted := by
  intro tag p s r S ha ht hp hm hS judge
  have hj : (fun b => if s.stale r.target.pins b then some .stale
      else ((atTaking s).bay b).judgePowerOn) = judge := by
    funext b
    simp only [judgePowerOn_eq]
    rfl
  have he : exec (.powerOn tag p) s = .next ((State.powerOnBays (variantOf r.variant)
      (verdictsOf S judge).accepted (atTaking s)).answer 0x06 tag (verdictsOf S judge).status
        (.verdicts (verdictsOf S judge))) := by
    change Host.Outcome.next (s.arrives 0x06 tag p (State.requestPowerOn tag p)) = _
    rw [arrives_atTaking ha, State.requestPowerOn, hp, checked_passed ht hm, multiBay_resolved hS hj]
  generalize hA : (verdictsOf S judge).accepted = A at he
  have hbay (b : BayId) : (State.powerOnBays (variantOf r.variant) A (atTaking s)).bay b
      = if inSet A b then (s.bay b).enterPowering (variantOf r.variant) else s.bay b := by
    rw [State.powerOnBays, mapBays_bay, atTaking_bay]
  have hrest : SameElsewhere s (State.powerOnBays (variantOf r.variant) A (atTaking s))
      ∧ (State.powerOnBays (variantOf r.variant) A (atTaking s)).atu = s.atu
      ∧ (State.powerOnBays (variantOf r.variant) A (atTaking s)).slc.answers = s.slc.answers := by
    simp only [State.powerOnBays]
    exact ⟨⟨by simp [atTaking], by simp [atTaking], by simp [atTaking], by simp [atTaking],
      by simp [atTaking], by simp [atTaking], by simp [atTaking], by simp [atTaking]⟩,
      by simp [atTaking], by simp [atTaking]⟩
  generalize State.powerOnBays (variantOf r.variant) A (atTaking s) = w at he hbay hrest
  obtain ⟨⟨e1, e2, e3, e4, e5, e6, e7, e8⟩, hatu, hans⟩ := hrest
  refine ⟨_, he, ?_, ⟨e1, e2, e3, e4, e5, e6, e7, e8⟩, hatu, fun b => ⟨fun hb hn => ?_, fun h => ?_⟩⟩
  · rw [Answered, answer_answers, hans]
  · have hin : inSet A b = true := by rw [← hA]; exact accepted_iff.mpr ⟨hb, hn⟩
    obtain ⟨u1, u2, u3, u4, u5, u6, u7⟩ := startSampling_unit (s.bay b).mu (s.bay b).params
    rw [answer_bay, hbay, if_pos hin]
    exact ⟨rfl, rfl, rfl, rfl, rfl, rfl, rfl, rfl, u1, u2, u3, u4, u5, u6, u7, rfl, rfl⟩
  · rw [answer_bay, hbay, if_neg]
    rw [← hA, not_accepted_of h]
    exact Bool.false_ne_true

/-! ## POWER_OFF (R19, R20) -/

theorem powerOffBay_on (h : (s.bay b).power.outputOn = true) : s.powerOffBay b
    = ((s.supplyOff b).endSteps b .powerLost).modBay b fun y => y.powerDown .off := by
  unfold State.powerOffBay
  cases hp : (s.bay b).power <;> simp_all [Power.outputOn]

theorem powerOffBay_tripped (h : (s.bay b).power = .tripped) :
    s.powerOffBay b = s.modBay b fun y => { y with power := .off } := by
  simp only [State.powerOffBay, h]

theorem powerOffBay_off (h : (s.bay b).power = .off ∨ (s.bay b).power = .none) :
    s.powerOffBay b = s := by
  unfold State.powerOffBay
  rcases h with h | h <;> rw [h]

/-- A power state is on, TRIPPED, or neither. -/
theorem power_cases (q : Power) : q.outputOn = true ∨ q = .tripped ∨ q = .off ∨ q = .none := by
  cases q <;> simp [Power.outputOn]

/-- The finals that the switch-off of a bay forms. -/
def powerOffFinals (s : State) (b : BayId) : List Result :=
  if (s.bay b).power.outputOn then endedFinals s b .powerLost else []

/-- What a POWER_OFF does at one bay to all but its bays. -/
structure PoweredOff (b : BayId) (s t : State) : Prop where
  others    : OnlyBay b s t
  station   : SameStation s t
  exchanges : t.exchanges = (handOvers (powerOffFinals s b) s).1.exchanges
  clb       : t.clb = (handOvers (powerOffFinals s b) s).1.clb
  flags     : ∀ b' c, (b', c) ≠ (b, AttClass.band)
                ∨ ¬ ((s.bay b).power.outputOn = true ∧ (s.bay b).mu.monitorAcc.due = true) →
                t.flag b' c = s.flag b' c

theorem powerOffBay_rest : PoweredOff b s (s.powerOffBay b) := by
  have nothing {f : Bay → Bay} (hon : (s.bay b).power.outputOn = false) :
      PoweredOff b s (s.modBay b f) := by
    have hf : powerOffFinals s b = [] := if_neg (by simp [hon])
    refine ⟨fun _ h => modBay_bay_other h, (modBay_resultFrame (b := b)).sameStation, ?_, ?_,
      fun _ _ _ => rfl⟩ <;> rw [hf] <;> rfl
  rcases power_cases (s.bay b).power with hon | htr | hoff
  · have hf : powerOffFinals s b = endedFinals s b .powerLost := if_pos hon
    obtain ⟨hx, hc, -, -⟩ := supplyOff_endedSteps (s := s) (b := b) (cause := .powerLost)
    rw [powerOffBay_on hon]
    refine ⟨fun b' h => ?_, sameStation_trans supplyOff_endSteps_sameStation
      (modBay_resultFrame (b := b)).sameStation, ?_, ?_, fun b' c h => ?_⟩
    · rw [modBay_bay_other h]; exact supplyOff_endSteps_onlyBay b' h
    · rw [hf]; exact hx
    · rw [hf]; exact hc
    · rw [modBay_flag]; exact supplyOff_endSteps_flag h
  · rw [powerOffBay_tripped htr]
    exact nothing (by rw [htr]; rfl)
  · rw [powerOffBay_off hoff]
    have h := nothing (f := id) (by rcases hoff with h | h <;> rw [h] <;> rfl)
    rwa [modBay_eq, id, setBay_self] at h

/-- What a POWER_OFF does to an accepted bay (Table 1.7). -/
def switchedOff (y z : Bay) : Prop :=
  (y.power.outputOn = true → WentDown .off y z ∧ z.seat = y.seat ∧ z.removal = y.removal)
  ∧ (y.power = .tripped → z = { y with power := .off })
  ∧ (y.power = .off → z = y)

theorem powerOffBay_bay : switchedOff (s.bay b) ((s.powerOffBay b).bay b) := by
  refine ⟨fun h => ?_, fun h => ?_, fun h => ?_⟩
  · rw [powerOffBay_on h, modBay_bay_same]
    obtain ⟨hw, hs, hr⟩ := wentDown_ended (p := .off) (cause := .powerLost) h
    obtain ⟨-, -, hds, hdr⟩ := powerDown_keeps (((s.supplyOff b).endSteps b .powerLost).bay b) .off
    exact ⟨hw, hds.trans hs, hdr.trans hr⟩
  · rw [powerOffBay_tripped h, modBay_bay_same]
  · rw [powerOffBay_off (.inl h)]

/-- The finals of a bay depend on that bay and on the window specifications of the exchanges. -/
theorem powerOffFinals_congr (hb : v.bay b = s.bay b) (hw : ∀ u, v.windowOf u = s.windowOf u) :
    powerOffFinals v b = powerOffFinals s b := by
  have hf : flightFinals v b .powerLost = flightFinals s b .powerLost := by
    unfold flightFinals flightWindow neverOpened
    simp only [hb, hw]
  have hq : queuedFinals v b .powerLost = queuedFinals s b .powerLost := by
    rw [queuedFinals_eq, queuedFinals_eq, hb, placeFinal?_of_windowOf hw]
  rw [powerOffFinals, powerOffFinals, hb, endedFinals, endedFinals, hf, hq]

/-- A pass of POWER_OFF over bays in their order: the finals of each, one bay after another. -/
theorem powerOff_pass (l : List BayId) (hd : l.Nodup) :
    let t := l.foldl (fun s b => if inSet A b then s.powerOffBay b else s) s
    let finals := l.flatMap fun b => if inSet A b then powerOffFinals s b else []
    t.exchanges = (handOvers finals s).1.exchanges ∧ t.clb = (handOvers finals s).1.clb
    ∧ SameStation s t
    ∧ ∀ b c, c ≠ AttClass.band ∨ ¬ (b ∈ l ∧ inSet A b = true ∧ (s.bay b).power.outputOn = true
        ∧ (s.bay b).mu.monitorAcc.due = true) → t.flag b c = s.flag b c := by
  induction l generalizing s with
  | nil => exact ⟨rfl, rfl, (ResultFrame.refl 0 s).sameStation, fun _ _ _ => rfl⟩
  | cons a l ih =>
    obtain ⟨ha, hd⟩ := List.nodup_cons.mp hd
    simp only [List.foldl_cons, List.flatMap_cons]
    by_cases hA : inSet A a = true
    · simp only [if_pos hA]
      obtain ⟨hother, hst, hx, hc, hfl⟩ := powerOffBay_rest (s := s) (b := a)
      have hne {b : BayId} (hb : b ∈ l) : b ≠ a := fun e => ha (e ▸ hb)
      have hw (u : Tag) : (s.powerOffBay a).windowOf u = s.windowOf u :=
        (windowOf_of_exchanges hx u).trans (windowOf_handOvers u)
      have hfinals : (l.flatMap fun b => if inSet A b then powerOffFinals (s.powerOffBay a) b else [])
          = l.flatMap fun b => if inSet A b then powerOffFinals s b else [] :=
        List.flatMap_congr fun b hb => by rw [powerOffFinals_congr (hother b (hne hb)) hw]
      obtain ⟨i1, i2, i3, i4⟩ := ih (s := s.powerOffBay a) hd
      rw [hfinals] at i1 i2
      obtain ⟨-, ex, ec⟩ := handOvers_congr (rs := l.flatMap fun b =>
        if inSet A b then powerOffFinals s b else []) hx hc
      refine ⟨?_, ?_, sameStation_trans hst i3, fun b c h => ?_⟩
      · rw [handOvers_append]; exact i1.trans ex
      · rw [handOvers_append]; exact i2.trans ec
      · refine (i4 b c ?_).trans (hfl b c ?_)
        · refine h.imp id fun hn ⟨hl, hin, hon, hdue⟩ => hn ⟨List.mem_cons_of_mem _ hl, hin, ?_⟩
          rw [hother b (hne hl)] at hon hdue
          exact ⟨hon, hdue⟩
        · by_cases hb : b = a
          · subst hb
            refine h.imp (fun hc e => hc (congrArg Prod.snd e)) fun hn hd => ?_
            exact hn ⟨List.mem_cons_self, hA, hd⟩
          · exact .inl fun e => hb (congrArg Prod.fst e)
    · simp only [if_neg hA, List.nil_append]
      obtain ⟨i1, i2, i3, i4⟩ := ih (s := s) hd
      refine ⟨i1, i2, i3, fun b c h => i4 b c (h.imp id fun hn ⟨hl, hr⟩ => hn ⟨?_, hr⟩)⟩
      exact List.mem_cons_of_mem _ hl

/-- Settles O17: the pass over the accepted bays, and what each of them becomes. -/
theorem powerOffPutsTheAcceptedOff : Obligations.PowerOffPutsTheAcceptedOff := by
  intro tag p s g S ha ht hp hm hS judge finals
  have hj : (fun b => if s.stale g.pins b then some .stale
      else ((atTaking s).bay b).judgePowerOff) = judge := by
    funext b
    simp only [judge, atTaking_bay, Bay.judgePowerOff]
    cases (s.bay b).seat <;> simp
  have he : exec (.powerOff tag p) s = .next (((atTaking s).forBays (verdictsOf S judge).accepted
      fun b s => s.powerOffBay b).answer 0x07 tag (verdictsOf S judge).status
        (.verdicts (verdictsOf S judge))) := by
    change Host.Outcome.next (s.arrives 0x07 tag p (State.requestPowerOff tag p)) = _
    rw [arrives_atTaking ha, State.requestPowerOff, hp, checked_passed ht hm, multiBay_resolved hS hj]
  have hpass := powerOff_pass (s := atTaking s) (A := (verdictsOf S judge).accepted) allBays
    (List.nodup_finRange 24)
  have hbay := forBays_bay (S := (verdictsOf S judge).accepted) (s := atTaking s)
    (f := fun b s => s.powerOffBay b) (R := switchedOff)
    (fun b b' s h => (powerOffBay_rest (s := s) (b := b)).others b' h) fun b s => powerOffBay_bay
  have hfinals : (allBays.flatMap fun b => if inSet (verdictsOf S judge).accepted b then
      powerOffFinals (atTaking s) b else []) = finals := by
    refine List.flatMap_congr fun b _ => ?_
    rw [inSet_accepted]
    cases inSet S b <;> cases (judge b).isNone <;> simp [powerOffFinals]; rfl
  simp only [hfinals] at hpass
  obtain ⟨hx, hc, hst, hfl⟩ := hpass
  obtain ⟨-, ex, ec⟩ := handOvers_congr (rs := finals) (s := s) (v := atTaking s) rfl rfl
  change (State.forBays _ _ _).exchanges = _ at hx
  change (State.forBays _ _ _).clb = _ at hc
  change SameStation _ (State.forBays _ _ _) at hst
  change ∀ b c, _ → (State.forBays _ _ _).flag b c = _ at hfl
  generalize (atTaking s).forBays (verdictsOf S judge).accepted (fun b s => s.powerOffBay b) = t at *
  refine ⟨_, he, ?_, hst.groups, ?_, fun b c h => hfl b c (.inl h), fun b h => ?_, hx.trans ex,
    hc.trans ec, fun b => ⟨fun hb hn hon => ?_, fun hb hn htr => ?_, fun h => ?_⟩⟩
  · rw [Answered, answer_answers, hst.slc]; rfl
  · rw [answer_parked, hst.slc]; rfl
  · exact hfl b .band (.inr fun ⟨_, hin, hd⟩ => h ⟨(accepted_iff.mp hin).1, (accepted_iff.mp hin).2, hd⟩)
  · exact ((hbay b).2 (accepted_iff.mpr ⟨hb, hn⟩)).1 hon
  · exact ((hbay b).2 (accepted_iff.mpr ⟨hb, hn⟩)).2.1 htr
  · by_cases hin : inSet (verdictsOf S judge).accepted b = true
    · obtain ⟨hb, hn⟩ := accepted_iff.mp hin
      refine ((hbay b).2 hin).2.2 ?_
      rcases h with h | h | h
      · simp [hb] at h
      · exact absurd hn h
      · exact h
    · exact (hbay b).1 (Bool.eq_false_iff.mpr hin)

/-! ## A reboot (R82, R120) -/

theorem stopLine_keeps (y : Bay) : y.stopLine.flight = y.flight ∧ y.stopLine.places = y.places
    ∧ y.stopLine.mu = y.mu ∧ y.stopLine.power = y.power ∧ y.stopLine.params = y.params
    ∧ y.stopLine.bootTime = y.bootTime ∧ y.stopLine.bootTimer = y.bootTimer
    ∧ y.stopLine.seating = y.seating ∧ y.stopLine.line.sending = none := by
  unfold Bay.stopLine
  split
  · next h => exact ⟨rfl, rfl, rfl, rfl, rfl, rfl, rfl, rfl, h⟩
  · exact ⟨rfl, rfl, rfl, rfl, rfl, rfl, rfl, rfl, rfl⟩

theorem stopLine_endsAlike : EndsAlike b s (s.modBay b Bay.stopLine) := by
  obtain ⟨hf, hp, hm, -⟩ := stopLine_keeps (s.bay b)
  refine ⟨rfl, rfl, by rw [modBay_bay_same, hp], by rw [modBay_bay_same, hf]; exact .refl _,
    fun st st' h h' => ?_⟩
  rw [modBay_bay_same, hf, h] at h'
  obtain rfl : st = st' := by injection h'
  unfold flightWindow
  rw [modBay_bay_same, hm]
  rfl

/-- A bay whose steps have ended goes on in ON with token 00 and the settle trigger sent (R82). -/
def Bay.rebooted (y : Bay) : Bay :=
  { y with
    token := 0
    mu := if y.params.settleOnChanges then y.mu.settleTrigger y.params.settleMs else y.mu }

theorem relink_keeps (y : Bay) : y.relink.power = y.power ∧ y.relink.token = y.token
    ∧ y.relink.line = y.line ∧ y.relink.flight = y.flight ∧ y.relink.places = y.places
    ∧ y.relink.bootTime = y.bootTime ∧ y.relink.bootTimer = y.bootTimer ∧ y.relink.mu = y.mu
    ∧ y.relink.seating = y.seating := by
  rw [relink_eq]
  exact ⟨rfl, rfl, rfl, rfl, rfl, rfl, rfl, rfl, rfl⟩

theorem relink_holdsResult (y : Bay) : y.relink.holdsResult = y.holdsResult := by
  rw [relink_eq]; rfl

/-- The station's state after the steps of a rebooting bay have ended. -/
def State.rebootEnded (s : State) (b : BayId) : State :=
  ((s.completeExchange b).modBay b Bay.stopLine).endSteps b .rebooted

theorem reboot_raisedAt : RaisedAt b (((s.rebootEnded b).bay b).rebooted.relink) .reboot
    (.steps ((s.completeExchange b).bay b).stepCount) (s.rebootEnded b) (s.reboot b) := by
  unfold State.reboot
  exact modBay_raisedAt (s := s.rebootEnded b) (f := fun y => y.rebooted.relink)

/-- The bay after its steps have ended for a reboot: steps, line, window and link apart, as before. -/
theorem rebootEnded_bay : ((s.rebootEnded b).bay b).power = (s.bay b).power
    ∧ ((s.rebootEnded b).bay b).params = (s.bay b).params
    ∧ ((s.rebootEnded b).bay b).bootTime = (s.bay b).bootTime
    ∧ ((s.rebootEnded b).bay b).bootTimer = (s.bay b).bootTimer
    ∧ ((s.rebootEnded b).bay b).seating = (s.bay b).seating
    ∧ ((s.rebootEnded b).bay b).line.sending = none
    ∧ ((s.rebootEnded b).bay b).mu.sampling = (s.bay b).mu.sampling := by
  obtain ⟨f, d, l, a, hx⟩ := completeExchange_bay (s := s) (b := b)
  obtain ⟨⟨fl, pl, wd, acc, hw⟩, -⟩ := endSteps_bay
    (s := (s.completeExchange b).modBay b Bay.stopLine) (b := b) (cause := .rebooted)
  obtain ⟨-, -, hm, hp, hq, hb, hbt, hs, hl⟩ := stopLine_keeps ((s.completeExchange b).bay b)
  rw [State.rebootEnded, hw, modBay_bay_same]
  exact ⟨hp.trans (by rw [hx]), hq.trans (by rw [hx]), hb.trans (by rw [hx]), hbt.trans (by rw [hx]),
    hs.trans (by rw [hx]), hl, (congrArg Mu.sampling hm).trans (by rw [hx])⟩

theorem rebootEnded_rest : SameStation s (s.rebootEnded b) ∧ OnlyBay b s (s.rebootEnded b)
    ∧ ∀ b' c, (s.rebootEnded b).flag b' c = s.flag b' c := by
  have h : ResultFrame b s (s.rebootEnded b) :=
    (completeExchange_frame.trans modBay_resultFrame).trans endSteps_frame
  exact ⟨h.sameStation, h.others, fun _ _ => flag_of_atu h.atu⟩

theorem rebootEnded_endedSteps : EndedSteps .rebooted b s (s.rebootEnded b) :=
  endedSteps_of_completeExchange (stopLine_endsAlike.endedSteps endedSteps_endSteps)

/-- A settle trigger taken up by a sampling unit (R65). -/
theorem settleTrigger_started {m : Mu} {ms : Nat} (hm : m.sampling = .sampling) (h : 0 < ms) :
    (m.settleTrigger ms).settleTimer = started ms ∧ (m.settleTrigger ms).periodSettle = true := by
  simp only [Mu.settleTrigger, hm, if_neg (Nat.ne_of_gt h), started, Timer.start, and_self]

/-- Settles O31, by the completion, the end of every step and the raise that a reboot is. -/
theorem readyInOnIsAReboot : Obligations.ReadyInOnIsAReboot := by
  intro b s text cut hr hp t ended
  have ht : t = s.reboot b := by
    change s.route b (.event text cut) = _
    rw [route_ready cut hr, State.readyLine, hp]
  have hra := reboot_raisedAt (s := s) (b := b)
  rw [← ht] at hra
  obtain ⟨hpow, hpar, hbt, hbm, hseat, hline, hsam⟩ := rebootEnded_bay (s := s) (b := b)
  obtain ⟨hst, hother, hflags⟩ := rebootEnded_rest (s := s) (b := b)
  have hend := rebootEnded_endedSteps (s := s) (b := b)
  obtain ⟨-, hfl, hpl, -⟩ := endSteps_bay
    (s := (s.completeExchange b).modBay b Bay.stopLine) (b := b) (cause := .rebooted)
  change ((s.rebootEnded b).bay b).flight.isStep = false at hfl
  change ∀ q ∈ ((s.rebootEnded b).bay b).places, q.isStep = false at hpl
  have hdata (u : State) (hu : s.completeExchange b = u) : (t.flag b .reboot).data = ended u := by
    rw [hra.data, hu]; rfl
  generalize s.rebootEnded b = w at *
  generalize hy : w.bay b = y at *
  obtain ⟨k1, k2, k3, k4, k5, k6, k7, k8, k9⟩ := relink_keeps y.rebooted
  have hlink := relink_link (y := y.rebooted) (hpow.trans hp) hfl
  rw [← relink_holdsResult] at hlink
  rw [← hra.bay] at k1 k2 k3 k4 k5 k6 k7 k8 k9 hlink
  refine ⟨k1.trans (hpow.trans hp), k2, (congrArg Line.sending k3).trans hline,
    by rw [k4]; exact hfl, by rw [k5]; exact hpl,
    endedSteps_congr hend hra.exchanges hra.clb ?_ ?_, hlink, k6.trans hbt, k7.trans hbm,
    fun h => ?_, fun u hu => ?_, hra.raised, ?_, fun hs1 hs2 hs3 => ?_,
    fun b' h => (hra.others b' h).trans (hother b' h), sameStation_trans hst hra.station,
    fun b' c h => (hra.flags b' c h).trans (hflags b' c)⟩
  · rw [k4, hy]; rfl
  · rw [k5, hy]; rfl
  · exact hdata s (completeExchange_eq_of_not_due h)
  · rw [exec_exchangeCompletion] at hu
    injection hu with hu
    exact hdata u hu
  · obtain ⟨-, -, -, -, -, -, -, -, hs⟩ := relink_keeps y.rebooted
    exact hra.seating.trans (hs.trans hseat)
  · have hm : y.rebooted.mu = y.mu.settleTrigger (s.bay b).params.settleMs := by
      simp only [Bay.rebooted, hpar, hs1, if_true]
    rw [k8, hm]
    exact settleTrigger_started (hsam.trans hs2) hs3

end Sys2Proof.Machine
end

section
/-! PROOF. Zero calibration (R35 to R37): its end, and its run over 516 periods. -/

namespace Sys2Proof.Machine

open Sys2Proof.Claims

variable {s t : State} {b : BayId} {y : Bay} {k : Calibration} {c : RawCode} {cs : List RawCode}

/-! ## The end of a calibration (R36, R37) -/

/-- Both candidates of a record lie within the limits of R37. -/
def Calibration.good (k : Calibration) : Prop :=
  -512 ≤ candidateOf k.lowSum ∧ candidateOf k.lowSum ≤ 512
    ∧ -512 ≤ candidateOf k.highSum ∧ candidateOf k.highSum ≤ 512

theorem withinLimits_bounds (x : Int) : withinLimits x = true ↔ -512 ≤ x ∧ x ≤ 512 := by
  rw [withinLimits, Bool.and_eq_true]
  exact and_congr decide_eq_true_iff decide_eq_true_iff

theorem withinLimits_iff (k : Calibration) :
    (withinLimits (candidateOf k.lowSum) && withinLimits (candidateOf k.highSum)) = true ↔ k.good := by
  rw [Bool.and_eq_true, withinLimits_bounds, withinLimits_bounds, and_assoc]
  rfl

/-- The unit after a good calibration takes both candidates as its offsets. -/
theorem calibrated_good (m : Mu) (h : k.good) : m.calibrated k = { m with
    sampling := .idle, calibration := none, wholePeriod := false
    lowOffset := candidateOf k.lowSum, highOffset := candidateOf k.highSum } := by
  simp only [Mu.calibrated, (withinLimits_iff k).mpr h, if_true]

/-- The unit after a faulty calibration keeps both its offsets. -/
theorem calibrated_faulty (m : Mu) (h : ¬ k.good) : m.calibrated k = { m with
    sampling := .idle, calibration := none, wholePeriod := false } := by
  have hw : ¬ (withinLimits (candidateOf k.lowSum) && withinLimits (candidateOf k.highSum)) = true :=
    fun e => h ((withinLimits_iff k).mp e)
  simp only [Mu.calibrated, if_neg hw]

theorem calibrationData_eq (k : Calibration) : ∃ fault : Bool, (fault = true ↔ ¬ k.good)
    ∧ calibrationData k = .calibration fault (candidateOf k.lowSum) (candidateOf k.highSum) := by
  refine ⟨_, ?_, rfl⟩
  rw [← withinLimits_iff k]
  cases (withinLimits (candidateOf k.lowSum) && withinLimits (candidateOf k.highSum)) <;> decide

theorem endCalibration_raisedAt (hs : (s.bay b).mu.sampling = .calibrating)
    (hk : (s.bay b).mu.calibration = some k) (hc : k.complete = true) :
    RaisedAt b { s.bay b with mu := (s.bay b).mu.calibrated k } .calibrated (calibrationData k) s
      (s.endCalibration b) := by
  rw [endCalibration_complete hs hk hc]
  exact modBay_raisedAt (f := fun y => { y with mu := y.mu.calibrated k })

/-- Settles O20, by the exact state after the end of a calibration. -/
theorem calibrationEndStoresOrFaults : Obligations.CalibrationEndStoresOrFaults := by
  intro b s k hs hk hc lo hi ok
  obtain ⟨h1, h2, h3, h4, h5, h6, h7, h8, h9⟩ := endCalibration_raisedAt hs hk hc
  obtain ⟨fault, hf, hd⟩ := calibrationData_eq k
  refine ⟨_, exec_calibrationEnd b s, fun h => ?_, fun h => ?_, h2, h3, h4, h5, h6, h7, fault, hf,
    h8.trans hd, h9⟩
  · rw [h1, calibrated_good _ h]
  · rw [h1, calibrated_faulty _ h]

/-! ## The record of a calibration under way (Table 2.6) -/

/-- The periods that a record has taken. -/
def Calibration.periods (k : Calibration) : Nat :=
  match k.phase with
  | .lowBlank => k.count
  | .lowSum => 2 + k.count
  | .highBlank => 258 + k.count
  | .highSum => 260 + k.count

/-- A record's count lies within its phase. -/
def Calibration.Inside (k : Calibration) : Prop :=
  match k.phase with
  | .lowBlank => k.count < 2
  | .lowSum => k.count < 256
  | .highBlank => k.count < 2
  | .highSum => k.count ≤ 256

theorem complete_iff_periods (h : k.Inside) : k.complete = true ↔ k.periods = 516 := by
  unfold Calibration.Inside at h
  unfold Calibration.complete Calibration.periods Config.calibrationSum
  cases hp : k.phase <;> simp only [hp] at h ⊢ <;> simp <;> omega

/-- A period taken is one more period. -/
theorem take_periods (h : k.Inside) (hk : k.periods < 516) :
    (k.take c).Inside ∧ (k.take c).periods = k.periods + 1 := by
  have hc : k.complete = false := by
    rw [Bool.eq_false_iff, ne_eq, complete_iff_periods h]
    exact Nat.ne_of_lt hk
  obtain ⟨phase, count, lo, hi⟩ := k
  cases phase <;> simp only [Calibration.Inside, Calibration.periods] at h hk
  case lowBlank =>
    by_cases hn : count + 1 < 2
    · have ht : Calibration.take ⟨.lowBlank, count, lo, hi⟩ c = ⟨.lowBlank, count + 1, lo, hi⟩ := if_pos hn
      rw [ht]
      exact ⟨hn, rfl⟩
    · have ht : Calibration.take ⟨.lowBlank, count, lo, hi⟩ c = ⟨.lowSum, 0, lo, hi⟩ := if_neg hn
      rw [ht]
      exact ⟨Nat.zero_lt_succ _, by simp only [Calibration.periods]; omega⟩
  case lowSum =>
    by_cases hn : count + 1 < 256
    · have ht : Calibration.take ⟨.lowSum, count, lo, hi⟩ c = ⟨.lowSum, count + 1, lo + c.toInt, hi⟩ := if_pos hn
      rw [ht]
      exact ⟨hn, rfl⟩
    · have ht : Calibration.take ⟨.lowSum, count, lo, hi⟩ c = 
        ⟨.highBlank, 0, lo + c.toInt, hi⟩ := if_neg hn
      rw [ht]
      exact ⟨Nat.zero_lt_succ _, by simp only [Calibration.periods]; omega⟩
  case highBlank =>
    by_cases hn : count + 1 < 2
    · have ht : Calibration.take ⟨.highBlank, count, lo, hi⟩ c = ⟨.highBlank, count + 1, lo, hi⟩ := if_pos hn
      rw [ht]
      exact ⟨hn, rfl⟩
    · have ht : Calibration.take ⟨.highBlank, count, lo, hi⟩ c = ⟨.highSum, 0, lo, hi⟩ := if_neg hn
      rw [ht]
      exact ⟨Nat.zero_le _, by simp only [Calibration.periods]; omega⟩
  case highSum =>
    have ht : Calibration.take ⟨.highSum, count, lo, hi⟩ c = ⟨.highSum, count + 1, lo, hi + c.toInt⟩ :=
      if_neg (by rw [hc]; decide)
    rw [ht]
    refine ⟨?_, by simp only [Calibration.periods]; omega⟩
    simp only [Calibration.Inside]
    omega

/-- The 256 codes of the LOW phase are summed. -/
theorem takes_low {n : Nat} {lo hi : Int} (h : n + cs.length = 256) (hn : n < 256) :
    cs.foldl Calibration.take { phase := .lowSum, count := n, lowSum := lo, highSum := hi }
      = { phase := .highBlank, count := 0, lowSum := lo + (cs.map BitVec.toInt).sum, highSum := hi } := by
  induction cs generalizing n lo with
  | nil => simp at h; omega
  | cons c cs ih =>
    rw [List.length_cons] at h
    rw [List.foldl_cons, List.map_cons, List.sum_cons, ← Int.add_assoc]
    by_cases hl : n + 1 < 256
    · have ht : Calibration.take { phase := .lowSum, count := n, lowSum := lo, highSum := hi } c
          = { phase := .lowSum, count := n + 1, lowSum := lo + c.toInt, highSum := hi } := if_pos hl
      rw [ht, ih (by omega) hl]
    · have ht : Calibration.take { phase := .lowSum, count := n, lowSum := lo, highSum := hi } c
          = { phase := .highBlank, count := 0, lowSum := lo + c.toInt, highSum := hi } := if_neg hl
      have hcs : cs = [] := List.eq_nil_of_length_eq_zero (by omega)
      subst hcs
      rw [ht]
      simp

/-- At most 256 codes of the HIGH phase are summed. -/
theorem takes_high {n : Nat} {lo hi : Int} (h : n + cs.length ≤ 256) :
    cs.foldl Calibration.take { phase := .highSum, count := n, lowSum := lo, highSum := hi }
      = { phase := .highSum, count := n + cs.length, lowSum := lo,
          highSum := hi + (cs.map BitVec.toInt).sum } := by
  induction cs generalizing n hi with
  | nil => simp
  | cons c cs ih =>
    rw [List.length_cons] at h
    have hc : ({ phase := .highSum, count := n, lowSum := lo, highSum := hi } : Calibration).complete
        = false := by
      refine Bool.and_eq_false_imp.mpr fun _ => decide_eq_false ?_
      change ¬ 256 ≤ n
      omega
    have ht : Calibration.take { phase := .highSum, count := n, lowSum := lo, highSum := hi } c
        = { phase := .highSum, count := n + 1, lowSum := lo, highSum := hi + c.toInt } :=
      if_neg (by rw [hc]; decide)
    rw [List.foldl_cons, ht, ih (by omega), List.map_cons, List.sum_cons, List.length_cons,
      Int.add_assoc, Nat.add_assoc, Nat.add_comm 1]

/-- A record with the codes of both ranges summed so far. -/
def summed (lows highs : List RawCode) : Calibration :=
  { phase := .highSum, count := highs.length, lowSum := (lows.map BitVec.toInt).sum,
    highSum := (highs.map BitVec.toInt).sum }

theorem summed_complete (lows highs : List RawCode) :
    (summed lows highs).complete = decide (256 ≤ highs.length) := rfl

theorem summed_take {lows highs : List RawCode} (h : highs.length < 256) (c : RawCode) :
    (summed lows highs).take c = summed lows (highs ++ [c]) := by
  have hc : ¬ (summed lows highs).complete = true := by rw [summed_complete]; simpa using h
  refine (if_neg hc).trans ?_
  simp [summed]

/-- The record after two discarded codes, 256 summed, two more discarded, and up to 256 summed. -/
theorem takes_all {l0 l1 h0 h1 : RawCode} {lows highs : List RawCode} (hl : lows.length = 256)
    (hh : highs.length ≤ 256) :
    ([l0, l1] ++ lows ++ [h0, h1] ++ highs).foldl Calibration.take
        { phase := .lowBlank, count := 0, lowSum := 0, highSum := 0 }
      = summed lows highs := by
  have h2 : [l0, l1].foldl Calibration.take { phase := .lowBlank, count := 0, lowSum := 0, highSum := 0 }
      = { phase := .lowSum, count := 0, lowSum := 0, highSum := 0 } := rfl
  rw [List.foldl_append, List.foldl_append, List.foldl_append, h2,
    takes_low (by rw [hl]) (by decide)]
  have h4 (lo : Int) : [h0, h1].foldl Calibration.take
      { phase := .highBlank, count := 0, lowSum := lo, highSum := 0 }
      = { phase := .highSum, count := 0, lowSum := lo, highSum := 0 } := rfl
  rw [h4, takes_high (by omega)]
  simp [summed]

/-! ## A run of boundaries (R35) -/

/-- Commands taken one after another: the rest goes on from where the first part ended. -/
theorem run_append {xs ys : List Instr} (h : run xs s = .next t) : run (xs ++ ys) s = run ys t := by
  induction xs generalizing s with
  | nil => obtain rfl : s = t := by injection h
           rfl
  | cons x xs ih =>
    rw [run] at h
    rw [List.cons_append, run]
    cases hx : exec x s with
    | next v => rw [hx] at h; exact ih h
    | fault r => rw [hx] at h; cases h
    | refused r => rw [hx] at h; cases h

/-- Bay `b` is calibrating with a record, in a whole period or before the first boundary. -/
def State.calibratingAt (s : State) (b : BayId) (whole : Bool) (k : Calibration) : State :=
  s.setBay b { s.bay b with mu := { (s.bay b).mu with wholePeriod := whole, calibration := some k } }

/-- A calibrating unit with nothing due but perhaps the calibration itself. -/
structure Calibrating (b : BayId) (s : State) : Prop where
  sampling : (s.bay b).mu.sampling = .calibrating
  monitor  : (s.bay b).mu.monitorAcc.due = false
  exchange : (s.bay b).mu.exchangeAcc.due = false

theorem boundary_first (h : Calibrating b s) (hk : k.complete = false) :
    exec (.periodBoundary b c) (s.calibratingAt b false k) = .next (s.calibratingAt b true k) := by
  change execPeriodBoundary b c (s.calibratingAt b false k) = _
  have hb : (s.calibratingAt b false k).bay b
      = { s.bay b with mu := { (s.bay b).mu with wholePeriod := false, calibration := some k } } := by
    rw [State.calibratingAt, setBay_bay_same]
  rw [periodBoundary_eq (by rw [hb]; exact h.monitor) (by rw [hb]; exact h.exchange)
    (by rw [hb]; intro k' e; obtain rfl : k = k' := by injection e
        exact hk)]
  have hm : ((s.calibratingAt b false k).modBay b fun y => y.boundary c) = s.calibratingAt b true k := by
    rw [modBay_eq, hb, State.calibratingAt, State.calibratingAt, setBay_setBay]
    simp only [Bay.boundary, h.sampling, Mu.calibratingBoundary, Bool.false_eq_true, if_false]
  rw [hm, endCalibration_eq_of_not_due]
  intro _ k' e
  rw [State.calibratingAt, setBay_bay_same] at e
  obtain rfl : k = k' := by injection e
  exact hk

theorem boundary_take (h : Calibrating b s) (hk : k.complete = false) :
    exec (.periodBoundary b c) (s.calibratingAt b true k)
      = .next ((s.calibratingAt b true (k.take c)).endCalibration b) := by
  change execPeriodBoundary b c (s.calibratingAt b true k) = _
  have hb : (s.calibratingAt b true k).bay b
      = { s.bay b with mu := { (s.bay b).mu with wholePeriod := true, calibration := some k } } := by
    rw [State.calibratingAt, setBay_bay_same]
  rw [periodBoundary_eq (by rw [hb]; exact h.monitor) (by rw [hb]; exact h.exchange)
    (by rw [hb]; intro k' e; obtain rfl : k = k' := by injection e
        exact hk)]
  have hm : ((s.calibratingAt b true k).modBay b fun y => y.boundary c)
      = s.calibratingAt b true (k.take c) := by
    rw [modBay_eq, hb, State.calibratingAt, State.calibratingAt, setBay_setBay]
    simp only [Bay.boundary, h.sampling, Mu.calibratingBoundary, if_true, Option.map_some]
  rw [hm]

theorem endCalibration_going_on (hk : k.complete = false) :
    (s.calibratingAt b true k).endCalibration b = s.calibratingAt b true k := by
  refine endCalibration_eq_of_not_due fun _ k' e => ?_
  rw [State.calibratingAt, setBay_bay_same] at e
  obtain rfl : k = k' := by injection e
  exact hk

/-- Boundaries up to the last but one of a calibration change the record alone. -/
theorem run_calibrating (h : Calibrating b s) (hi : k.Inside) (hk : k.periods + cs.length < 516) :
    run (cs.map (Instr.periodBoundary b)) (s.calibratingAt b true k)
      = .next (s.calibratingAt b true (cs.foldl Calibration.take k)) := by
  have going {k : Calibration} (hi : k.Inside) (hk : k.periods < 516) : k.complete = false := by
    rw [Bool.eq_false_iff, ne_eq, complete_iff_periods hi]
    exact Nat.ne_of_lt hk
  induction cs generalizing k with
  | nil => rfl
  | cons c cs ih =>
    rw [List.length_cons] at hk
    obtain ⟨hi', hp'⟩ := take_periods (c := c) hi (by omega)
    rw [List.map_cons, run, boundary_take h (going hi (by omega)),
      endCalibration_going_on (going hi' (by omega))]
    exact ih hi' (by omega)

/-- Settles O21: the first boundary begins period 1, the next 515 change the record alone, and the last
one ends the calibration. -/
theorem calibrationRunSumsItsPeriods : Obligations.CalibrationRunSumsItsPeriods := by
  intro b s first l0 l1 h0 h1 last lows highs hsam hwhole hcal hmon hexch hl hh codes lo hi ok
  have hc : Calibrating b s := ⟨hsam, hmon, hexch⟩
  have hstart : s = s.calibratingAt b false { phase := .lowBlank, count := 0, lowSum := 0, highSum := 0 } := by
    rw [State.calibratingAt, ← hwhole, ← hcal]
    exact setBay_self.symm
  have htaken := takes_all (l0 := l0) (l1 := l1) (h0 := h0) (h1 := h1) (lows := lows) (highs := highs) hl
    (by omega)
  have hrun : run (codes.map (Instr.periodBoundary b)) s
      = .next (s.calibratingAt b true (summed lows highs)) := by
    have he : codes = first :: ([l0, l1] ++ lows ++ [h0, h1] ++ highs) := rfl
    rw [he, List.map_cons, run, hstart, boundary_first hc rfl, ← hstart, ← htaken]
    refine run_calibrating hc (by decide : (0 : Nat) < 2) ?_
    simp [Calibration.periods, hl, hh]
  have hgo : (summed lows highs).complete = false := by rw [summed_complete, hh]; rfl
  have hlast := summed_take (lows := lows) (highs := highs) (by omega) last
  have hdone : (summed lows (highs ++ [last])).complete = true := by
    rw [summed_complete, List.length_append, hh]; rfl
  have hend : run ((codes ++ [last]).map (Instr.periodBoundary b)) s
      = .next ((s.calibratingAt b true (summed lows (highs ++ [last]))).endCalibration b) := by
    rw [List.map_append, run_append hrun, List.map_cons, run, boundary_take hc hgo, hlast]
    rfl
  refine ⟨⟨_, _, hrun, rfl, hgo, rfl, rfl⟩, ?_⟩
  have hb : (s.calibratingAt b true (summed lows (highs ++ [last]))).bay b
      = { s.bay b with mu := { (s.bay b).mu with
          wholePeriod := true, calibration := some (summed lows (highs ++ [last])) } } := by
    rw [State.calibratingAt, setBay_bay_same]
  obtain ⟨r1, r2, r3, r4, r5, r6, r7, r8, r9⟩ := endCalibration_raisedAt
    (s := s.calibratingAt b true (summed lows (highs ++ [last]))) (b := b)
    (k := summed lows (highs ++ [last])) (by rw [hb]; exact hsam) (by rw [hb]) hdone
  obtain ⟨fault, hf, hd⟩ := calibrationData_eq (summed lows (highs ++ [last]))
  rw [hb] at r1 r7
  refine ⟨_, hend, fun h => ?_, fun h => ?_, fun b' hb' => ?_, ?_, r4, r5, r6, r7,
    ⟨fault, hf, r8.trans hd⟩, r9⟩
  · rw [r1, calibrated_good (k := summed lows (highs ++ [last])) _ h]; rfl
  · rw [r1, calibrated_faulty (k := summed lows (highs ++ [last])) _ h]
  · exact (r2 b' hb').trans (setBay_bay_other hb')
  · exact sameStation_trans (t := s.calibratingAt b true (summed lows (highs ++ [last])))
      ⟨rfl, rfl, rfl, ⟨rfl, rfl⟩, ⟨rfl, rfl⟩, rfl, rfl⟩ r3

end Sys2Proof.Machine
end

section
/-! PROOF. Window arithmetic (chapter 3): the mean, the root, the figures and the sums of a window. -/

namespace Sys2Proof.Machine

open Sys2Proof.Claims

variable {a : Accumulator} {n q r k : Nat} {x s1 lo hi : Int} {is : List Int}

/-! ## The mean (R48) -/

theorem meanOf_of_nonneg (hn : 0 < n) (h : 0 ≤ s1) : meanOf s1 n = (2 * s1 + n) / (2 * n) := by
  obtain rfl | hpos := h.eq_or_lt
  · have : (n : Int) / (2 * n) = 0 := Int.ediv_eq_zero_of_lt (by omega) (by omega)
    simp [meanOf, this]
  · have hsign : s1.sign = 1 := Int.sign_eq_one_of_pos hpos
    have habs : (s1.natAbs : Int) = s1 := Int.natAbs_of_nonneg h
    simp [meanOf, hsign, habs]

theorem meanOf_neg (s1 : Int) (n : Nat) : meanOf (-s1) n = -meanOf s1 n := by
  simp [meanOf]

theorem meanOf_of_neg (hn : 0 < n) (h : s1 < 0) : meanOf s1 n = -((2 * -s1 + n) / (2 * n)) := by
  calc meanOf s1 n = -meanOf (-s1) n := by rw [meanOf_neg, neg_neg]
    _ = -((2 * -s1 + n) / (2 * n)) := by rw [meanOf_of_nonneg hn (by omega)]

/-- A mean of a sum that is not negative lies between the bounds of its samples. -/
theorem meanOf_bounds_of_nonneg (hn : 0 < n) (h : 0 ≤ s1) (hlo : lo * n ≤ s1) (hhi : s1 ≤ hi * n) :
    lo ≤ meanOf s1 n ∧ meanOf s1 n ≤ hi := by
  have hn' : (0 : Int) < 2 * n := by omega
  rw [meanOf_of_nonneg hn h]
  constructor
  · refine Int.le_ediv_of_mul_le hn' ?_
    have : lo * (2 * n) = 2 * (lo * n) := by ring
    omega
  · refine Int.lt_add_one_iff.mp (Int.ediv_lt_of_lt_mul hn' ?_)
    have : (hi + 1) * (2 * n) = 2 * (hi * n) + 2 * n := by ring
    omega

theorem meanOf_bounds (hn : 0 < n) (hlo : lo * n ≤ s1) (hhi : s1 ≤ hi * n) :
    lo ≤ meanOf s1 n ∧ meanOf s1 n ≤ hi := by
  obtain h | h := le_or_gt 0 s1
  · exact meanOf_bounds_of_nonneg hn h hlo hhi
  · have hb := meanOf_bounds_of_nonneg (s1 := -s1) (lo := -hi) (hi := -lo) hn (by omega)
      (by rw [Int.neg_mul]; omega) (by rw [Int.neg_mul]; omega)
    rw [meanOf_neg] at hb
    omega

/-! ## The root (R49) -/

/-- Bit by bit the root found so far stays at or below the root sought, which stays within the bits
left. -/
theorem rootBits_spec (hr : r * r ≤ q) (hq : q < (r + 2 ^ k) * (r + 2 ^ k)) :
    rootBits k q r * rootBits k q r ≤ q ∧ q < (rootBits k q r + 1) * (rootBits k q r + 1) := by
  induction k generalizing r with
  | zero => exact ⟨hr, hq⟩
  | succ k ih =>
    rw [rootBits]
    split
    · next h =>
      refine ih h ?_
      have : r + 2 ^ (k + 1) = r + 2 ^ k + 2 ^ k := by ring
      rwa [← this]
    · next h => exact ih hr (Nat.lt_of_not_le h)

theorem rootOf_spec (hq : q < 2 ^ 64) :
    rootOf q * rootOf q ≤ q ∧ q < (rootOf q + 1) * (rootOf q + 1) :=
  rootBits_spec (Nat.zero_le q) (by simpa [← Nat.pow_add] using hq)

/-! ## The figures (R48 to R50) -/

theorem figures_counts (a : Accumulator) : a.figures.elapsed = a.elapsed ∧ a.figures.n = a.n
    ∧ a.figures.blanked = a.blanked ∧ a.figures.clipped = a.clipped
    ∧ a.figures.switches = a.switches ∧ a.figures.settling = a.settling := by
  unfold Accumulator.figures
  split
  · next h => exact ⟨rfl, h.symm, rfl, rfl, rfl, rfl⟩
  · exact ⟨rfl, rfl, rfl, rfl, rfl, rfl⟩

theorem figures_empty (h : a.n = 0) : a.figures.empty = true ∧ a.figures.mean = 0
    ∧ a.figures.rms = 0 ∧ a.figures.min = 0 ∧ a.figures.max = 0 := by
  rw [Accumulator.figures, if_pos h]
  exact ⟨rfl, rfl, rfl, rfl, rfl⟩

theorem figures_sampled (h : a.n ≠ 0) : a.figures.empty = false ∧ a.figures.mean = meanOf a.s1 a.n
    ∧ a.figures.rms = rootOf (a.s2 / a.n) ∧ a.figures.min = a.min.getD 0
    ∧ a.figures.max = a.max.getD 0 := by
  rw [Accumulator.figures, if_neg h]
  exact ⟨rfl, rfl, rfl, rfl, rfl⟩

/-- Settles O23, by the sign of the sum, the bits of the root, and the two cases of the figures. -/
theorem meanAndRmsAreExact : Obligations.MeanAndRmsAreExact := by
  refine ⟨fun s1 n hn => ⟨meanOf_of_nonneg hn, meanOf_of_neg hn, fun lo hi => meanOf_bounds hn⟩,
    fun q hq => ⟨(rootOf_spec hq).1, fun r hr => ?_⟩, fun a => ?_⟩
  · by_contra hn
    have hlt : q < r * r :=
      Nat.lt_of_lt_of_le (rootOf_spec hq).2 (Nat.mul_self_le_mul_self (Nat.lt_of_not_le hn))
    exact Nat.not_le.mpr hlt hr
  · obtain ⟨h1, h2, h3, h4, h5, h6⟩ := figures_counts a
    refine ⟨h1, h2, h3, h4, h5, h6, figures_empty, fun h => ?_⟩
    obtain ⟨e, m, rm, mn, mx⟩ := figures_sampled h
    exact ⟨e, m, rm, fun x hx => by rw [mn, hx]; rfl, fun x hx => by rw [mx, hx]; rfl⟩

/-! ## The sums of a window (R40, R41, R47) -/

theorem min?_concat (is : List Int) (x : Int) : (is ++ [x]).min? = some (match is.min? with
    | none => x
    | some m => if x < m then x else m) := by
  cases is with
  | nil => rfl
  | cons y ys =>
    simp only [List.cons_append, List.min?_cons', List.foldl_append, List.foldl_cons, List.foldl_nil]
    congr 1
    split <;> omega

theorem max?_concat (is : List Int) (x : Int) : (is ++ [x]).max? = some (match is.max? with
    | none => x
    | some m => if m < x then x else m) := by
  cases is with
  | nil => rfl
  | cons y ys =>
    simp only [List.cons_append, List.max?_cons', List.foldl_append, List.foldl_cons, List.foldl_nil]
    congr 1
    split <;> omega

/-- The samples of a list of period items. -/
def samplesOf (items : List PeriodItem) : List Sample := items.filterMap fun it => it.sample

/-- A running window of length `L` holds the true counts and sums of the items it has taken. -/
structure Holds (L : Nat) (spec : Option WindowSpec) (items : List PeriodItem) (a : Accumulator) :
    Prop where
  state    : a.state = .running
  length   : a.length = L
  spec     : a.spec = spec
  elapsed  : a.elapsed = items.length
  n        : a.n = (samplesOf items).length
  total    : a.n + a.blanked = a.elapsed
  s1       : a.s1 = ((samplesOf items).map fun x => x.current).sum
  s2       : a.s2 = (((samplesOf items).map fun x => x.current).map fun i => (i * i).toNat).sum
  clipped  : a.clipped = ((samplesOf items).filter fun x => x.clipped).length
  switches : a.switches = 0
  settling : a.settling = true ↔ ∃ it ∈ items, it.settle = true
  min      : a.min = ((samplesOf items).map fun x => x.current).min?
  max      : a.max = ((samplesOf items).map fun x => x.current).max?

theorem holds_opened (L : Nat) (spec : Option WindowSpec) :
    Holds L spec [] (Accumulator.opening L spec).begin :=
  ⟨rfl, rfl, rfl, rfl, rfl, rfl, rfl, rfl, rfl, rfl, by simp [Accumulator.begin, Accumulator.opening,
    Accumulator.cleared], rfl, rfl⟩

/-- A window that has not taken its last item takes one more. -/
theorem Holds.take {L : Nat} {spec : Option WindowSpec} {items : List PeriodItem} {it : PeriodItem}
    (h : Holds L spec items a) (hl : items.length < L) : Holds L spec (items ++ [it]) (a.take it) := by
  have hin : a.inside = true := by simp [Accumulator.inside, h.state, h.elapsed, h.length, hl]
  have hset : (a.settling || it.settle) = true ↔ ∃ i ∈ items ++ [it], i.settle = true := by
    rw [Bool.or_eq_true, h.settling]
    simp [or_and_right, exists_or]
  cases hs : it.sample with
  | none =>
    have hsam : samplesOf (items ++ [it]) = samplesOf items := by simp [samplesOf, hs]
    have ht : a.take it = { a with
        elapsed := a.elapsed + 1, settling := a.settling || it.settle, blanked := a.blanked + 1 } := by
      simp only [Accumulator.take, hin, if_true, hs]
    rw [ht]
    have htot := h.total
    exact ⟨h.state, h.length, h.spec, by simp [h.elapsed], by rw [hsam]; exact h.n,
      by simp only; omega, by rw [hsam]; exact h.s1, by rw [hsam]; exact h.s2,
      by rw [hsam]; exact h.clipped, h.switches, hset, by rw [hsam]; exact h.min,
      by rw [hsam]; exact h.max⟩
  | some x =>
    have hsam : samplesOf (items ++ [it]) = samplesOf items ++ [x] := by simp [samplesOf, hs]
    have ht : a.take it = Accumulator.takeSample { a with
        elapsed := a.elapsed + 1, settling := a.settling || it.settle } x := by
      simp only [Accumulator.take, hin, if_true, hs]
    rw [ht]
    have htot := h.total
    refine ⟨h.state, h.length, h.spec, by simp [Accumulator.takeSample, h.elapsed], ?_, ?_, ?_, ?_, ?_,
      h.switches, hset, ?_, ?_⟩
    · simp [Accumulator.takeSample, hsam, h.n]
    · simp only [Accumulator.takeSample]; omega
    · simp [Accumulator.takeSample, hsam, h.s1]
    · simp [Accumulator.takeSample, hsam, h.s2]
    · cases hc : x.clipped <;> simp [Accumulator.takeSample, hsam, h.clipped, hc]
    · rw [hsam, List.map_append, List.map_cons, List.map_nil, min?_concat, ← h.min]
      rfl
    · rw [hsam, List.map_append, List.map_cons, List.map_nil, max?_concat, ← h.max]
      rfl

theorem holds_all {L : Nat} {spec : Option WindowSpec} (items : List PeriodItem)
    (hl : items.length ≤ L) :
    Holds L spec items (items.foldl Accumulator.take (Accumulator.opening L spec).begin) := by
  induction items using List.reverseRecOn with
  | nil => exact holds_opened L spec
  | append_singleton items it ih =>
    rw [List.length_append] at hl
    rw [List.foldl_append]
    exact (ih (by omega)).take (by simpa using hl)

/-- Settles O24, by induction on the items taken. -/
theorem windowSumsAreExact : Obligations.WindowSumsAreExact := by
  intro L spec items hl xs is a
  obtain ⟨-, h2, h3, h4, h5, h6, h7, h8, h9, h10, h11, h12, h13⟩ := holds_all (spec := spec) items hl
  refine ⟨h2, h3, h4, h5, h6, h7, h8, h9, h10, h11, fun he => ?_, fun m => ?_, fun m => ?_⟩
  · exact ⟨h12.trans (by rw [List.min?_eq_none_iff]; exact he),
      h13.trans (by rw [List.max?_eq_none_iff]; exact he)⟩
  · exact (iff_of_eq (congrArg (· = some m) h12)).trans List.min?_eq_some_iff
  · exact (iff_of_eq (congrArg (· = some m) h13)).trans List.max?_eq_some_iff

end Sys2Proof.Machine
end

section
/-! PROOF. The boundary of a sampling unit (R23 to R32, R40 to R43), and the completion of windows (R44, R55 to
R59, R107, R112). -/

namespace Sys2Proof.Machine

open Sys2Proof.Claims

variable {s t : State} {b : BayId} {y z : Bay} {m : Mu} {c : RawCode} {mode : RangeMode}
  {st : Step} {rp : Reply} {r : Result} {w : WindowSpec} {a : Accumulator}

/-! ## The range decision (R28 to R31) -/

theorem adjusted_eq (m : Mu) (c : RawCode) : m.adjusted c
    = max (-32768) (min 32767 (c.toInt - (if m.range = .low then m.lowOffset else m.highOffset))) := by
  unfold Mu.adjusted clampCode Mu.offset
  cases m.range <;> rfl

theorem nextDown_eq (m : Mu) (c : RawCode) : m.nextDown c
    = if m.periodBlanked = false ∧ m.range = .high ∧ m.adjusted c ≤ 48 then m.downCount + 1 else 0 := by
  unfold Mu.nextDown
  cases hr : m.range with
  | low => exact (if_neg fun h => by cases h.2.1).symm
  | high =>
    cases hb : m.periodBlanked with
    | true => exact (if_neg fun h => by cases h.1).symm
    | false =>
      by_cases h : m.adjusted c ≤ 48
      · exact (if_pos h).trans (if_pos ⟨rfl, rfl, h⟩).symm
      · exact (if_neg h).trans (if_neg fun hc => h hc.2.2).symm

theorem autoRange_eq (m : Mu) (c : RawCode) : m.autoRange c
    = if m.periodBlanked = false ∧ m.range = .low ∧ 30000 ≤ m.adjusted c then .high
      else if m.range = .high ∧ 64 ≤ m.nextDown c then .low else m.range := by
  unfold Mu.autoRange
  cases hr : m.range with
  | low =>
    have hc : (!m.periodBlanked && decide (Config.upSwitchCode ≤ m.adjusted c)) = true
        ↔ m.periodBlanked = false ∧ Range.low = Range.low ∧ 30000 ≤ m.adjusted c := by
      rw [Bool.and_eq_true, Bool.not_eq_true']
      exact and_congr Iff.rfl (decide_eq_true_iff.trans (and_iff_right rfl).symm)
    by_cases h : m.periodBlanked = false ∧ Range.low = Range.low ∧ 30000 ≤ m.adjusted c
    · exact (if_pos (hc.mpr h)).trans (if_pos h).symm
    · exact (if_neg (mt hc.mp h)).trans ((if_neg h).trans (if_neg fun hn => by cases hn.1)).symm
  | high =>
    have hn : ¬ (m.periodBlanked = false ∧ Range.high = Range.low ∧ 30000 ≤ m.adjusted c) :=
      fun h => by cases h.2.1
    rw [if_neg hn]
    by_cases h : m.nextDown c < 64
    · exact (if_pos h).trans (if_neg fun hc => Nat.not_le.mpr h hc.2).symm
    · exact (if_neg h).trans (if_pos ⟨rfl, Nat.le_of_not_lt h⟩).symm

/-- The next range and the down count: the decision of AUTO, and over it a pending mode (Table 2.3). -/
theorem nextRange_eq (m : Mu) (mode : RangeMode) (c : RawCode) : m.nextRange mode c =
    (match m.pendingRange with
      | some .low => Range.low
      | some .high => Range.high
      | some .auto => if mode = .auto then m.autoRange c else m.range
      | none => if mode = .auto then m.autoRange c else m.range,
     match m.pendingRange with
      | some .low => 0
      | some .high => 0
      | some .auto => if mode = .auto then m.nextDown c else 0
      | none => if mode = .auto then m.nextDown c else 0) := by
  unfold Mu.nextRange
  cases m.pendingRange with
  | none => cases mode <;> rfl
  | some p => cases p <;> cases mode <;> rfl

/-- The item of the period just ended, in the terms of R24 to R26. -/
theorem item_eq (m : Mu) (c : RawCode) : m.item c = {
    settle := m.periodSettle
    sample := if m.periodBlanked then none else some {
      current := if m.range = .low then m.adjusted c else 500 * m.adjusted c
      range := m.range
      clipped := decide (c.toInt = 32767) || decide (c.toInt = -32768) } } := by
  have hc (x : Int) : m.range.current x = if m.range = .low then x else 500 * x := by
    cases m.range <;> rfl
  rw [Mu.item, hc, isClipped]

/-! ## A window across a boundary (R40 to R43) -/

/-- What a window does at a boundary: it takes the item, counts a switch inside it, and a STARTING one
runs. -/
theorem begin_eq (a : Accumulator) :
    a.begin = if a.state = .starting then { a with state := .running } else a := by
  unfold Accumulator.begin
  split <;> simp_all

theorem noteSwitch_eq (a : Accumulator) : a.noteSwitch
    = if a.state = .running ∧ 1 ≤ a.elapsed ∧ a.elapsed < a.length then
        { a with switches := min 255 (a.switches + 1) } else a := by
  have hc : (a.inside && decide (1 ≤ a.elapsed)) = true
      ↔ a.state = .running ∧ 1 ≤ a.elapsed ∧ a.elapsed < a.length := by
    simp only [Accumulator.inside, Bool.and_eq_true, decide_eq_true_eq]
    tauto
  unfold Accumulator.noteSwitch
  by_cases h : a.state = .running ∧ 1 ≤ a.elapsed ∧ a.elapsed < a.length
  · rw [if_pos h, if_pos (hc.mpr h)]; rfl
  · rw [if_neg h, if_neg (mt hc.mp h)]

/-- A window at the boundary that ends a whole period, with or without a range switch. -/
def Accumulator.across (a : Accumulator) (it : PeriodItem) (switched : Bool) : Accumulator :=
  (if switched then (a.take it).noteSwitch else a.take it).begin

/-- The unit after the boundary that ends a whole period of sampling (R26, R31, R32). -/
theorem samplingBoundary_whole (hw : m.wholePeriod = true) :
    m.samplingBoundary mode c =
      if (m.nextRange mode c).1 = m.range then
        { m with
          downCount := (m.nextRange mode c).2, pendingRange := none, wholePeriod := true
          periodBlanked := decide (0 < m.blanking), blanking := m.blanking - 1
          periodSettle := m.settleTimer.isSome
          monitorAcc := m.monitorAcc.across (m.item c) false
          exchangeAcc := m.exchangeAcc.across (m.item c) false }
      else
        { m with
          range := (m.nextRange mode c).1, downCount := 0, pendingRange := none, wholePeriod := true
          periodBlanked := true, blanking := 1, periodSettle := m.settleTimer.isSome
          monitorAcc := m.monitorAcc.across (m.item c) true
          exchangeAcc := m.exchangeAcc.across (m.item c) true } := by
  unfold Mu.samplingBoundary Mu.applyRange Mu.endPeriod Mu.decideRange
  simp only [hw, if_true]
  by_cases h : (m.nextRange mode c).1 = m.range
  · simp only [if_pos h]; rfl
  · simp only [if_neg h]; rfl

/-- The unit after the first boundary of its sampling, with no mode pending (R23, R40). -/
theorem samplingBoundary_first (hw : m.wholePeriod = false) (hp : m.pendingRange = none) :
    m.samplingBoundary mode c = { m with
      wholePeriod := true, downCount := 0, periodBlanked := decide (0 < m.blanking)
      blanking := m.blanking - 1, periodSettle := m.settleTimer.isSome
      monitorAcc := m.monitorAcc.begin, exchangeAcc := m.exchangeAcc.begin } := by
  unfold Mu.samplingBoundary Mu.applyRange Mu.endPeriod Mu.decideRange
  simp only [hw, hp, Bool.false_eq_true, if_false, if_true]
  rfl

theorem exec_boundary_sampling (hs : (s.bay b).mu.sampling = .sampling) (hd : NothingDue (s.bay b)) :
    exec (.periodBoundary b c) s = .next (s.setBay b { s.bay b with
      params := { (s.bay b).params with
        rangeMode := (s.bay b).mu.pendingRange.getD (s.bay b).params.rangeMode }
      mu := (s.bay b).mu.samplingBoundary (s.bay b).params.rangeMode c }) := by
  obtain ⟨h1, h2, h3⟩ := hd
  have h := periodBoundary_sampling (c := c) h1 h2 h3 hs
  refine Eq.trans (b := execPeriodBoundary b c s) rfl (h.trans ?_)
  rw [modBay_eq]
  simp only [Bay.boundary, hs]

/-- Settles O22: the boundary of a whole period by the range decided, and the first boundary. -/
theorem boundaryDecidesTheRange : Obligations.BoundaryDecidesTheRange := by
  constructor
  · intro b c s hs hd hw m mode a sample up count down decided next kept item across
    have hadj : m.adjusted c = a := adjusted_eq m c
    have hdown : mode = .auto → m.nextDown c = count := fun hm => by
      simp only [count, sample, hm, true_and, nextDown_eq, hadj]
    have hcount : mode ≠ .auto → count = 0 := fun hm => if_neg fun h => hm h.1
    have hauto : (if mode = .auto then m.autoRange c else m.range) = decided := by
      by_cases hm : mode = .auto
      · have h := autoRange_eq m c
        rw [hdown hm, hadj] at h
        simp only [decided, up, down, sample, hm, true_and, if_true, h]
      · simp only [decided, up, down, hm, false_and, if_false]
    have hkept : (if mode = .auto then m.nextDown c else 0) = count := by
      by_cases hm : mode = .auto
      · rw [if_pos hm, hdown hm]
      · rw [if_neg hm, hcount hm]
    have hnext : m.nextRange mode c = (next, kept) := by
      have h := nextRange_eq m mode c
      rw [hauto, hkept] at h
      exact h
    have hitem : m.item c = item := by
      have h := item_eq m c
      rw [hadj] at h
      exact h
    have hacross (w : Accumulator) : w.across (m.item c) (decide (next ≠ m.range)) = across w := by
      rw [hitem, Accumulator.across, begin_eq, noteSwitch_eq]
      by_cases h : next = m.range
      · simp only [across, h, ne_eq, not_true_eq_false, decide_false, Bool.false_eq_true, if_false,
          false_and]
      · simp only [across, h, ne_eq, not_false_eq_true, decide_true, if_true, true_and]
    have hmu : (s.bay b).mu.samplingBoundary (s.bay b).params.rangeMode c = _ :=
      samplingBoundary_whole (m := m) (mode := mode) (c := c) hw
    rw [hnext] at hmu
    refine ⟨_, exec_boundary_sampling hs hd, ?_⟩
    rw [setBay_bay_same, hmu]
    by_cases h : next = m.range
    · have ha (w : Accumulator) : w.across (m.item c) false = across w := by
        rw [← hacross, decide_eq_false (not_not_intro h)]
      rw [if_pos h]
      exact ⟨h.symm, fun hn => absurd h hn, fun _ => ⟨rfl, rfl, decide_eq_true_iff⟩, ha _, ha _, rfl, rfl,
        hs, rfl, rfl, rfl, rfl, Iff.rfl, rfl, rfl, rfl, fun _ hb => setBay_bay_other hb,
        ⟨rfl, rfl, rfl, ⟨rfl, rfl⟩, ⟨rfl, rfl⟩, rfl, rfl⟩, rfl, rfl, rfl⟩
    · have ha (w : Accumulator) : w.across (m.item c) true = across w := by
        rw [← hacross, decide_eq_true h]
      rw [if_neg h]
      exact ⟨rfl, fun _ => ⟨rfl, rfl, rfl⟩, fun hn => absurd hn h, ha _, ha _, rfl, rfl,
        hs, rfl, rfl, rfl, rfl, Iff.rfl, rfl, rfl, rfl, fun _ hb => setBay_bay_other hb,
        ⟨rfl, rfl, rfl, ⟨rfl, rfl⟩, ⟨rfl, rfl⟩, rfl, rfl⟩, rfl, rfl, rfl⟩
  · intro b c s hs hd hw hp m begun
    rw [exec_boundary_sampling hs hd, samplingBoundary_first hw hp, begin_eq, begin_eq, hp]
    rfl

/-! ## The completion of a monitor window (R55 to R59) -/

/-- The count after an outcome, by Table 4.3. -/
theorem outOfBandAfter_eq (n most : Nat) (v : Verdict) : outOfBandAfter n most v
    = if v = .low ∨ v = .high then min (n + 1) most else if v = .inband then 0 else n := by
  cases v <;> rfl

theorem bandReached_iff (m : Mu) (p : Params) : m.bandReached p = true ↔ m.outOfBand < p.monitorCount
    ∧ outOfBandAfter m.outOfBand p.monitorCount
        (monitorOutcome p.monitorLo p.monitorHi m.monitorAcc.figures) = p.monitorCount := by
  simp only [Mu.bandReached, Bool.and_eq_true, decide_eq_true_eq]

theorem completeMonitor_reached (hd : (s.bay b).mu.monitorAcc.due = true)
    (hr : (s.bay b).mu.bandReached (s.bay b).params = true) :
    RaisedAt b { s.bay b with mu := (s.bay b).mu.monitorCompleted (s.bay b).params } .band
      (bandData (s.bay b).params (s.bay b).mu.monitorAcc.figures) s (s.completeMonitor b) := by
  unfold State.completeMonitor
  simp only [hd, hr, if_true]
  exact modBay_raisedAt (f := fun y => { y with mu := y.mu.monitorCompleted y.params })

theorem completeMonitor_not_reached (hd : (s.bay b).mu.monitorAcc.due = true)
    (hr : ¬ (s.bay b).mu.bandReached (s.bay b).params = true) :
    s.completeMonitor b
      = s.setBay b { s.bay b with mu := (s.bay b).mu.monitorCompleted (s.bay b).params } := by
  unfold State.completeMonitor
  simp only [hd, if_true, if_neg hr]
  rfl

/-- Settles O26: BAND is raised exactly where the count is reached; the unit is the same in both
cases. -/
theorem monitorWindowCompletes : Obligations.MonitorWindowCompletes := by
  intro b s hd m p f outcome count
  have hout : monitorOutcome p.monitorLo p.monitorHi f = outcome := rfl
  have hcount : outOfBandAfter m.outOfBand p.monitorCount
      (monitorOutcome p.monitorLo p.monitorHi f) = count := outOfBandAfter_eq _ _ _
  have hmu : m.monitorCompleted p = { m with
      outOfBand := count
      lastSummary := some { verdict := outcome, reasons := Reasons.none,
                            length := m.monitorAcc.length, figures := some f }
      monitorAcc := { Accumulator.cleared with
        state := .running, length := m.monitorAcc.length } } := by
    rw [← hcount]; rfl
  have hreach : m.bandReached p = true ↔ m.outOfBand < p.monitorCount ∧ count = p.monitorCount := by
    rw [bandReached_iff, hcount]
  by_cases hr : m.bandReached p = true
  · obtain ⟨h1, h2, h3, h4, h5, h6, h7, h8, h9⟩ := completeMonitor_reached hd hr
    have hb := h1.trans (congrArg (fun n => ({ s.bay b with mu := n } : Bay)) hmu)
    exact ⟨s.completeMonitor b, rfl, hb, h2, h3, h4, h5, h9, fun _ _ => ⟨h6, h7, h8⟩,
      fun hn => absurd (hreach.mp hr) hn⟩
  · have he := completeMonitor_not_reached hd hr
    have hb := (congrArg (fun v : State => v.bay b) he).trans setBay_bay_same
    refine ⟨s.completeMonitor b, rfl,
      hb.trans (congrArg (fun n => ({ s.bay b with mu := n } : Bay)) hmu), completeMonitor_onlyBay,
      completeMonitor_sameStation, ?_, ?_, fun b' c h => completeMonitor_flag h,
      fun h h' => absurd (hreach.mpr ⟨h, h'⟩) hr, fun _ => ?_⟩ <;> rw [he] <;> rfl

/-! ## The formation of a final (R112) -/

/-- A final is formed at a bay that is ON as said by `formedAt`. -/
theorem formResult_formedAt (hp : y.power = .on) (hf : y.flight = .step st) (hr : st.reply = some rp)
    (hw : st.window ≠ .scheduled ∧ st.window ≠ .opened) (hfin : s.finalOf b st rp = r) :
    (s.setBay b y).formResult b = formedAt s b y r := by
  have hfin' : (s.setBay b y).finalOf b st rp = r := hfin
  have htag : r.tag = st.tag := by rw [← hfin]; rfl
  rw [formResult_ready (by rw [setBay_bay_same]; exact hf) hr hw,
    formFlight_relink (by rw [setBay_bay_same]; exact hp), hfin', handOver_setBay, setBay_bay_same,
    setBay_setBay, formedAt, htag]

/-- Nothing is formed while the window is waited for. -/
theorem formResult_waiting (hf : (s.bay b).flight = .step st)
    (hw : st.window = .scheduled ∨ st.window = .opened) : s.formResult b = s := by
  unfold State.formResult
  simp only [hf]
  rcases hw with hw | hw <;> cases hr : st.reply <;> simp only [hw]

/-! ## The window delay (R107) -/

theorem exec_windowDelayExpiry (hd : (s.bay b).windowDelay.isSome = true)
    (hf : (s.bay b).flight = .step st) (hw : s.windowOf st.tag = some w) :
    exec (.windowDelayExpiry b) s = .next ((s.setBay b
      (Bay.openWindow { s.bay b with windowDelay := none } w)).formResult b) := by
  obtain ⟨d, hd⟩ := Option.isSome_iff_exists.mp hd
  change execWindowDelayExpiry b s = _
  unfold execWindowDelayExpiry
  split
  · next d' st' _ hf' =>
    obtain rfl : st = st' := by rw [hf] at hf'; injection hf'
    split
    · next w' hw' =>
      obtain rfl : w = w' := by rw [hw] at hw'; injection hw'
      rfl
    · next hn => rw [hw] at hn; cases hn
  · next hn => exact absurd hf (hn d st hd)

theorem openWindow_sampling (hf : y.flight = .step st) (hs : y.mu.sampling = .sampling) :
    y.openWindow w = { y with
      windowDelay := none, flight := .step { st with window := .opened }
      mu := { y.mu with exchangeAcc := { Accumulator.cleared with
        state := .starting, length := w.length, spec := some w } } } := by
  unfold Bay.openWindow
  simp only [hf, hs]
  rfl

theorem openWindow_not_sampling (hf : y.flight = .step st) (hs : y.mu.sampling ≠ .sampling) :
    y.openWindow w = { y with
      windowDelay := none, flight := .step { st with window := .notOpened } } := by
  unfold Bay.openWindow
  cases h : y.mu.sampling with
  | sampling => exact absurd h hs
  | idle | calibrating => simp only [hf]

/-- A step without an open window brings NOT_OPENED to its final. -/
theorem finalOf_notOpened (s : State) (b : BayId) (st : Step) (rp : Reply) :
    s.finalOf b { st with window := .notOpened } rp = finalResult b st rp (neverOpened s st.tag) := rfl

theorem finalOf_done (s : State) (b : BayId) (st : Step) (rp : Reply) (k : WindowSummary) :
    s.finalOf b { st with window := .done k } rp = finalResult b st rp (some k) := rfl

/-- Settles O27: the open request by the unit's state, the completion by the reply phase. -/
theorem exchangeWindowOpensAndCompletes : Obligations.ExchangeWindowOpensAndCompletes := by
  refine ⟨fun b s st w hd hf hw => ⟨fun hs => ?_, fun hs hr => ?_, fun rp hs hr hp => ?_⟩, ?_,
    fun b s hd => ?_⟩
  · have ho := openWindow_sampling (y := { s.bay b with windowDelay := none }) (w := w) hf hs
    rw [exec_windowDelayExpiry hd hf hw, ho,
      formResult_waiting (st := { st with window := .opened }) (by rw [setBay_bay_same]) (.inr rfl)]
  · have ho := openWindow_not_sampling (y := { s.bay b with windowDelay := none }) (w := w) hf hs
    rw [exec_windowDelayExpiry hd hf hw, ho,
      formResult_of_no_reply (st := { st with window := .notOpened }) (by rw [setBay_bay_same]) hr]
  · have ho := openWindow_not_sampling (y := { s.bay b with windowDelay := none }) (w := w) hf hs
    rw [exec_windowDelayExpiry hd hf hw, ho]
    exact congrArg Host.Outcome.next (formResult_formedAt (st := { st with window := .notOpened })
      (rp := rp) hp rfl hr ⟨by simp, by simp⟩ (finalOf_notOpened s b st rp))
  · intro b s st hd hf hw y free
    refine ⟨fun hr => ?_, fun rp hr hp => ?_⟩
    · rw [exec_exchangeCompletion, completeExchange_of_no_reply hd hf hw hr]
      exact congrArg Host.Outcome.next rfl
    · rw [exec_exchangeCompletion, State.completeExchange, if_pos hd, modBay_eq,
        exchangeCompleted_opened hf hw]
      exact congrArg Host.Outcome.next (formResult_formedAt
        (st := { st with window := .done (s.bay b).mu.exchangeAcc.completed }) (rp := rp) hp rfl hr
        ⟨by simp, by simp⟩ (finalOf_done s b st rp _))
  · rw [exec_exchangeCompletion, completeExchange_eq_of_not_due hd]

end Sys2Proof.Machine
end

section
/-! PROOF. The bay line (chapter 5) and the reply phase of a step (sections 7.4 and 7.5). -/

namespace Sys2Proof.Machine

open Sys2Proof.Claims

variable {s t : State} {b : BayId} {y z : Bay} {st : Step} {rp : Reply} {r : Result} {w : WindowSpec}
  {x : Byte} {l : Line} {a : Assembly} {text : List Byte} {cut : Bool} {k : Token}

/-! ## The line assembler (R73 to R76) -/

theorem exec_uplinkByte_off (h : (s.bay b).power.outputOn = false) :
    exec (.uplinkByte b x) s = .next s :=
  congrArg Host.Outcome.next (if_neg (by simp [h]))

/-- A byte that does not end a line changes the bay's line alone. -/
theorem exec_uplinkByte_on (h : (s.bay b).power.outputOn = true)
    (hr : (s.bay b).line.receive x = (l, none)) :
    exec (.uplinkByte b x) s = .next (s.setBay b { s.bay b with line := l }) := by
  change execUplinkByte b x s = _
  simp only [execUplinkByte, if_pos h, hr]
  rfl

/-- A line that ends is classified and routed at once. -/
theorem exec_uplinkByte_ended (h : (s.bay b).power.outputOn = true)
    (hr : (s.bay b).line.receive x = (l, some a)) :
    exec (.uplinkByte b x) s = .next ((s.setBay b { s.bay b with line := l }).route b a.classify) := by
  change execUplinkByte b x s = _
  simp only [execUplinkByte, if_pos h, hr]
  rfl

theorem receive_first (hc : x ≠ 0x0D) (hl : x ≠ 0x0A) (ha : l.assembly = none) :
    l.receive x = ({ l with crEnd := false, assembly := some (Assembly.start [x] false) }, none) := by
  simp only [Line.receive, if_neg hc, if_neg hl, ha]

theorem receive_more (hc : x ≠ 0x0D) (hl : x ≠ 0x0A) (ha : l.assembly = some a) :
    l.receive x = ({ l with crEnd := false, assembly := some (a.store x) }, none) := by
  simp only [Line.receive, if_neg hc, if_neg hl, ha]

theorem receive_cr : l.receive 0x0D = ({ l.lineOver with crEnd := true }, l.assembly) := rfl

theorem receive_lf : l.receive 0x0A = ({ l.lineOver with crEnd := false }, l.assembly) := rfl

/-- A line end at an EMPTY assembler with no rate pending touches the CR-end mark alone. -/
theorem lineOver_empty (ha : l.assembly = none) (hp : l.rxPending = none) : l.lineOver = l := by
  cases l
  subst ha hp
  rfl

theorem exec_framingFault (h : (s.bay b).power.outputOn = true) : exec (.framingFault b) s
    = .next (s.setBay b { s.bay b with line := (s.bay b).line.framingFault }) :=
  congrArg Host.Outcome.next (if_pos h)

theorem framingFault_eq (l : Line) : l.framingFault = { l with
    crEnd := false
    assembly := some (match l.assembly with
      | none => Assembly.start [] true
      | some a => { a with broken := true }) } := by
  unfold Line.framingFault
  cases l.assembly <;> rfl

/-- Settles O29: by the byte and the state of the assembler. -/
theorem uplinkAssemblyRules : Obligations.UplinkAssemblyRules := by
  constructor
  · intro b s hon y
    refine ⟨fun x hc hl => ⟨fun ha => ?_, fun a ha => ?_⟩, ?_, fun ha hp => ⟨?_, ?_⟩, ?_, fun ha => ?_⟩
    · exact exec_uplinkByte_on hon (receive_first hc hl ha)
    · exact exec_uplinkByte_on hon (receive_more hc hl ha)
    · intro a ha ended
      have ha' : (s.bay b).line.assembly = some a := ha
      have hcr := receive_cr (l := (s.bay b).line)
      have hlf := receive_lf (l := (s.bay b).line)
      rw [ha'] at hcr hlf
      exact ⟨exec_uplinkByte_ended hon hcr, exec_uplinkByte_ended hon hlf⟩
    · exact exec_uplinkByte_on hon (receive_cr.trans (by rw [lineOver_empty ha hp, ha]))
    · exact exec_uplinkByte_on hon (receive_lf.trans (by rw [lineOver_empty ha hp, ha]))
    · rw [exec_framingFault hon, framingFault_eq]
      cases (s.bay b).line.assembly <;> rfl
    · exact congrArg Host.Outcome.next (if_pos ha)
  · intro b x s hoff
    exact ⟨exec_uplinkByte_off hoff, congrArg Host.Outcome.next (if_neg (by simp [hoff]))⟩

/-! ## A whole line (R73, R78) -/

/-- Bay `b` has stored the first bytes of a line. -/
def State.assembling (s : State) (b : BayId) (stored : List Byte) : State :=
  s.setBay b { s.bay b with line := { (s.bay b).line with
    crEnd := false, assembly := some (Assembly.start stored false) } }

theorem assembling_bay (stored : List Byte) : (s.assembling b stored).bay b
    = { s.bay b with line := { (s.bay b).line with
        crEnd := false, assembly := some (Assembly.start stored false) } } := setBay_bay_same

theorem start_store {stored : List Byte} (h : stored.length < 124) :
    (Assembly.start stored false).store x = Assembly.start (stored ++ [x]) false := if_pos h

theorem assembling_byte {stored : List Byte} (hon : (s.bay b).power.outputOn = true)
    (hl : stored.length < 124) (hx : x ≠ 0x0D ∧ x ≠ 0x0A) :
    exec (.uplinkByte b x) (s.assembling b stored) = .next (s.assembling b (stored ++ [x])) := by
  have hb := assembling_bay (s := s) (b := b) stored
  rw [exec_uplinkByte_on (by rw [hb]; exact hon) (receive_more hx.1 hx.2 (by rw [hb])), start_store hl, hb,
    State.assembling, setBay_setBay]
  rfl

theorem assembling_bytes {stored line : List Byte} (hon : (s.bay b).power.outputOn = true)
    (hl : stored.length + line.length ≤ 124) (hx : ∀ x ∈ line, x ≠ 0x0D ∧ x ≠ 0x0A) :
    run (line.map (Instr.uplinkByte b)) (s.assembling b stored)
      = .next (s.assembling b (stored ++ line)) := by
  induction line generalizing stored with
  | nil => rw [List.append_nil]; rfl
  | cons x line ih =>
    rw [List.length_cons] at hl
    rw [List.map_cons, run, assembling_byte hon (by omega) (hx x List.mem_cons_self)]
    have h := ih (stored := stored ++ [x]) (by simp; omega)
      fun q hq => hx q (List.mem_cons_of_mem _ hq)
    rw [List.append_assoc] at h
    exact h

/-- The line feed that ends a line assembled from an EMPTY assembler with no rate pending. -/
theorem assembling_end {stored : List Byte} (hon : (s.bay b).power.outputOn = true)
    (ha : (s.bay b).line.assembly = none) (hp : (s.bay b).line.rxPending = none) :
    exec (.uplinkByte b 0x0A) (s.assembling b stored)
      = .next ((s.setBay b { s.bay b with line := { (s.bay b).line with crEnd := false } }).route b
          (Assembly.start stored false).classify) := by
  have hb := assembling_bay (s := s) (b := b) stored
  have hover : ({ Line.lineOver { (s.bay b).line with
      crEnd := false, assembly := some (Assembly.start stored false) } with crEnd := false } : Line)
      = { (s.bay b).line with crEnd := false } := by
    unfold Line.lineOver
    simp only [ha, hp, Option.getD_none]
  rw [exec_uplinkByte_ended (by rw [hb]; exact hon) (receive_lf.trans (by rw [hb])), hb,
    State.assembling, setBay_setBay]
  simp only [hover]

/-! ## Classification (R78) -/

theorem hexForm_some {rest : List Byte} {t : Token} : hexForm rest = some (t, text)
    ↔ ∃ x0 x1 h l, hexValue x0 = some h ∧ hexValue x1 = some l ∧ rest = x0 :: x1 :: 0x20 :: text
      ∧ t = BitVec.ofNat 8 (16 * h + l) := by
  constructor
  · intro hf
    unfold hexForm at hf
    split at hf
    · next x0 x1 sp text' =>
      split at hf
      · next h l hh hl =>
        split at hf
        · next hsp =>
          obtain ⟨rfl, rfl⟩ : BitVec.ofNat 8 (16 * h + l) = t ∧ text' = text := by simpa using hf
          exact ⟨x0, x1, h, l, hh, hl, by rw [hsp], rfl⟩
        · cases hf
      · cases hf
    all_goals cases hf
  · rintro ⟨x0, x1, h, l, hh, hl, rfl, rfl⟩
    simp [hexForm, hh, hl]

theorem classify_broken (h : a.broken = true) : a.classify = .garbage := if_pos h

theorem classify_event (h : a.broken = false) (hs : a.stored = 0x21 :: text) :
    a.classify = .event (cutText text) (isTruncated text a.discard) := by
  rw [Assembly.classify, hs, if_neg (by simp [h])]
  rfl

theorem classify_log (h : a.broken = false) (hs : a.stored = 0x23 :: text) :
    a.classify = .log (cutText text) (isTruncated text a.discard) := by
  rw [Assembly.classify, hs, if_neg (by simp [h])]
  rfl

theorem classify_final {rest : List Byte} {t : Token} (h : a.broken = false)
    (hs : a.stored = 0x3E :: rest) (hf : hexForm rest = some (t, text)) :
    a.classify = .final t (cutText text) (isTruncated text a.discard) := by
  rw [Assembly.classify, hs, if_neg (by simp [h])]
  simp only [if_true, hf]

theorem classify_interim {rest : List Byte} {t : Token} (h : a.broken = false)
    (hs : a.stored = 0x2B :: rest) (hf : hexForm rest = some (t, text)) :
    a.classify = .interim t (cutText text) (isTruncated text a.discard) := by
  have hne : (0x2B : Byte) ≠ 0x3E := by decide
  rw [Assembly.classify, hs, if_neg (by simp [h])]
  simp only [if_neg hne, if_true, hf]

/-- A line of none of the forms of Table 5.2 is garbage. -/
theorem classify_garbage (he : ∀ text, a.stored ≠ 0x21 :: text) (hl : ∀ text, a.stored ≠ 0x23 :: text)
    (hf : ∀ rest t text, a.stored = 0x3E :: rest → hexForm rest ≠ some (t, text))
    (hi : ∀ rest t text, a.stored = 0x2B :: rest → hexForm rest ≠ some (t, text)) :
    a.classify = .garbage := by
  unfold Assembly.classify
  split
  · rfl
  · split
    · rfl
    · next x rest hs =>
      split
      · next hx =>
        subst hx
        split
        · next t text hh => exact absurd hh (hf rest t text hs)
        · rfl
      · split
        · next hx =>
          subst hx
          split
          · next t text hh => exact absurd hh (hi rest t text hs)
          · rfl
        · split
          · next hx => exact absurd (hx ▸ hs) (he rest)
          · split
            · next hx => exact absurd (hx ▸ hs) (hl rest)
            · rfl

/-! ## Routing (R83 to R85, R157) -/

theorem deliverLog_dropped (l : LogLine) (b' : BayId) (h : 64 ≤ s.atu.ring.length) :
    s.deliverLog l = { s with atu := { s.atu with dropped := (s.deliverLog l).atu.dropped } }
    ∧ (s.deliverLog l).atu.dropped.get b'
      = if b' = l.bay then min 65535 (s.atu.dropped.get l.bay + 1) else s.atu.dropped.get b' := by
  have hn : ¬ s.atu.ring.length < Config.logLines := Nat.not_lt.mpr h
  rw [State.deliverLog, if_neg hn]
  refine ⟨rfl, ?_⟩
  by_cases hb : b' = l.bay
  · subst hb
    simp [Vector.get_eq_getElem, saturate]
  · have hv : l.bay.val ≠ b'.val := fun e => hb (Fin.ext e.symm)
    simp [Vector.get_eq_getElem, hb, hv]

/-- Settles O30: the bytes one by one, the forms of Table 5.2, and the routing of each kind. -/
theorem lineIsClassifiedWhole : Obligations.LineIsClassifiedWhole := by
  refine ⟨fun b s line hon ha hp h1 h124 hx => ?_, fun a => ⟨classify_broken, fun hb => ⟨?_, ?_⟩⟩,
    fun b s text cut => ⟨fun hr => ?_, fun hf hl => ?_, fun hf hl => ?_, fun hf => ?_, rfl⟩⟩
  · cases line with
    | nil => simp at h1
    | cons x line =>
      rw [List.length_cons] at h124
      have hx0 := hx x List.mem_cons_self
      have h0 : exec (.uplinkByte b x) s = .next (s.assembling b [x]) :=
        exec_uplinkByte_on hon (receive_first hx0.1 hx0.2 ha)
      have hbytes := assembling_bytes (s := s) (b := b) (stored := [x]) (line := line) hon
        (by simp; omega) fun q hq => hx q (List.mem_cons_of_mem _ hq)
      rw [List.cons_append, List.map_cons, run, h0, List.map_append]
      simp only
      rw [run_append hbytes, List.map_cons, run, assembling_end hon ha hp]
      rfl
  · intro text cut
    refine ⟨classify_event hb, classify_log hb, fun x0 x1 h l hh hl => ⟨fun hs => ?_, fun hs => ?_⟩⟩
    · exact classify_final hb hs (hexForm_some.mpr ⟨x0, x1, h, l, hh, hl, rfl, rfl⟩)
    · exact classify_interim hb hs (hexForm_some.mpr ⟨x0, x1, h, l, hh, hl, rfl, rfl⟩)
  · intro hn
    refine classify_garbage (fun text => (hn text).1) (fun text => (hn text).2.1)
      (fun rest t text hs hf => ?_) fun rest t text hs hf => ?_
    · obtain ⟨x0, x1, h, l, hh, hl, rfl, -⟩ := hexForm_some.mp hf
      exact ((hn text).2.2 x0 x1 h l hh hl).1 hs
    · obtain ⟨x0, x1, h, l, hh, hl, rfl, -⟩ := hexForm_some.mp hf
      exact ((hn text).2.2 x0 x1 h l hh hl).2 hs
  · exact if_neg (by simp [hr])
  · exact (if_pos hf).trans (if_pos hl)
  · have hroute : s.route b (.log text cut) = s.deliverLog {
        bay := b, seating := (s.bay b).seating, truncated := cut, text := text } := if_pos hf
    rw [hroute]
    exact ⟨(deliverLog_dropped _ b hl).1, fun b' => (deliverLog_dropped _ b' hl).2⟩
  · exact if_neg (by simp [hf])

/-! ## The end of transmission (R72, R106) -/

theorem exec_downlinkEnd_idle {line : List Byte} (hs : (s.bay b).line.sending = some line)
    (hl : (s.bay b).link ≠ .sendingLine) :
    exec (.downlinkEndOfTransmission b) s = .next (s.setBay b (s.bay b).stopLine) := by
  have hk : (s.bay b).stopLine.link = (s.bay b).link := by simp only [Bay.stopLine, hs]
  change execDownlinkEndOfTransmission b s = _
  unfold execDownlinkEndOfTransmission
  simp only [hs]
  split
  · next h _ =>
    change ((s.modBay b Bay.stopLine).bay b).link = _ at h
    rw [modBay_bay_same, hk] at h
    exact absurd h hl
  · rfl

theorem exec_downlinkEnd_step {line : List Byte} (hs : (s.bay b).line.sending = some line)
    (hl : (s.bay b).link = .sendingLine) (hf : (s.bay b).flight = .step st) :
    exec (.downlinkEndOfTransmission b) s
      = .next (s.setBay b ((s.bay b).stopLine.awaitReply st (s.windowOf st.tag))) := by
  have hk : (s.bay b).stopLine.link = (s.bay b).link := by simp only [Bay.stopLine, hs]
  have hg : (s.bay b).stopLine.flight = (s.bay b).flight := by simp only [Bay.stopLine, hs]
  have hb : ((s.modBay b Bay.lineSent).bay b) = (s.bay b).stopLine := modBay_bay_same
  change execDownlinkEndOfTransmission b s = _
  unfold execDownlinkEndOfTransmission
  simp only [hs]
  split
  · next st' _ hf' =>
    rw [hb, hg, hf] at hf'
    obtain rfl : st = st' := by injection hf'
    rw [modBay_eq, hb, modBay_eq, setBay_setBay]
    rfl
  · next hn => exact (hn st (by rw [hb, hk, hl]) (by rw [hb, hg, hf])).elim

theorem startWindow_later (h : w.delayMs ≠ 0) :
    y.startWindow w = { y with windowDelay := started w.delayMs } := if_neg h

theorem startWindow_now (h : w.delayMs = 0) : y.startWindow w = y.openWindow w := if_pos h

/-- A step whose line was sent, awaiting its reply. -/
def Step.awaiting (st : Step) : Step :=
  { st with
    deadline := .running { length := st.replyDeadlineMs, left := st.replyDeadlineMs }, clock := 0 }

theorem awaitReply_plain {q : Option WindowSpec} (h : ∀ w, q = some w → w.anchor = .atReply) :
    y.awaitReply st q = { y with link := .awaiting, flight := .step st.awaiting } := by
  unfold Bay.awaitReply
  cases q with
  | none => rfl
  | some w => simp only [h w rfl]; rfl

theorem awaitReply_atSend (h : w.anchor = .atSend) : y.awaitReply st (some w)
    = Bay.startWindow { y with link := .awaiting, flight := .step st.awaiting } w := by
  unfold Bay.awaitReply
  simp only [h]
  rfl

theorem stopLine_some {line : List Byte} (h : y.line.sending = some line) : y.stopLine = { y with
    token := y.token + 1
    line := { y.line with
      sending := none, txRate := y.line.txPending.getD y.line.txRate, txPending := none } } := by
  simp only [Bay.stopLine, h]

/-- Settles O32: without a step in SENDING_LINE, and with one by its window's anchor and delay. -/
theorem lineSentStartsTheDeadline : Obligations.LineSentStartsTheDeadline := by
  intro b s line hs y z
  have hz : (s.bay b).stopLine = z := stopLine_some hs
  refine ⟨fun hl => ?_, ?_⟩
  · rw [exec_downlinkEnd_idle hs hl, hz]
  · intro st hl hf st'
    have hexec := exec_downlinkEnd_step hs hl hf
    rw [hz] at hexec
    refine ⟨fun hw => ?_, fun w hw ha hd => ?_, fun w hw ha hd hsam => ?_⟩
    · rw [hexec, awaitReply_plain hw]
      rfl
    · rw [hexec, hw, awaitReply_atSend ha, startWindow_later hd]
      rfl
    · have ho := openWindow_sampling (y := { z with link := .awaiting, flight := .step st.awaiting })
        (w := w) rfl hsam
      rw [hexec, hw, awaitReply_atSend ha, startWindow_now hd, ho]
      rfl

/-! ## Dispatch (R105) -/

/-- Settles O38: by the head of the queue. -/
theorem dispatchSendsTheHeadStep : Obligations.DispatchSendsTheHeadStep := by
  intro b s y
  refine ⟨fun st ps x hl hs hp hx => ?_, fun h => ?_⟩
  · have hh : (s.bay b).headStep? = some (st, ps) := by
      have hp' : (s.bay b).places = .step st :: ps := hp
      simp only [Bay.headStep?, hp']
    have ht : s.textOf st.tag = x.text := by simp only [State.textOf, hx]
    change execStepDispatch b s = _
    unfold execStepDispatch
    rw [show (s.bay b).link = .idle from hl, show (s.bay b).line.sending = none from hs, hh]
    simp only [ht]
    rfl
  · change execStepDispatch b s = _
    unfold execStepDispatch
    split
    · next st ps hl hs hh =>
      rcases h with h | h | h
      · exact absurd hl h
      · exact absurd hs h
      · have hp : (s.bay b).places = [] := h
        simp only [Bay.headStep?, hp] at hh
        cases hh
    · rfl

/-! ## The end of the reply phase (R108, R111) -/

/-- A step whose reply phase is over and which waits for no window forms its final. -/
theorem formed_replied {win : StepWindow} (hp : (s.bay b).power = .on)
    (hw : win ≠ .scheduled ∧ win ≠ .opened)
    (hr : finalResult b st rp (win.summary (s.windowOf st.tag)) = r) :
    (s.setBay b { s.bay b with flight := .step { st.replied rp with window := win } }).formResult b
      = formedAt s b (s.bay b) r :=
  formResult_formedAt (st := { st.replied rp with window := win }) (rp := rp) hp rfl rfl hw hr

/-- A final at a step that waits for no window (R108). -/
theorem replyFinal_ready (hw : st.window ≠ .scheduled ∧ st.window ≠ .opened) : s.replyFinal b st rp
    = (s.setBay b { s.bay b with flight := .step (st.replied rp) }).formResult b := by
  unfold State.replyFinal
  simp only
  split
  · next h _ => exact absurd h hw.1
  · next h => exact absurd h hw.2
  · rfl

/-- A final at a step whose window is open or follows its own anchor (R108). -/
theorem replyFinal_measure (hw : st.window = .opened
    ∨ st.window = .scheduled ∧ ∃ w, s.windowOf st.tag = some w ∧ w.anchor = .atSend) :
    s.replyFinal b st rp
      = s.setBay b { s.bay b with link := .measuring, flight := .step (st.replied rp) } := by
  unfold State.replyFinal
  rcases hw with h | ⟨h, w, hw, ha⟩
  · simp only [h]; rfl
  · simp only [h, hw, ha]; rfl

/-- A final at a step whose window is anchored at the reply (R108). -/
theorem replyFinal_start (h : st.window = .scheduled) (hw : s.windowOf st.tag = some w)
    (ha : w.anchor = .atReply) : s.replyFinal b st rp
      = (s.setBay b (Bay.startWindow { s.bay b with
          link := .measuring, flight := .step (st.replied rp) } w)).formResult b := by
  unfold State.replyFinal
  simp only [h, hw, ha]
  rfl

theorem replyFinal_formed (hp : (s.bay b).power = .on)
    (hw : st.window ≠ .scheduled ∧ st.window ≠ .opened)
    (hr : finalResult b st rp (st.window.summary (s.windowOf st.tag)) = r) :
    s.replyFinal b st rp = formedAt s b (s.bay b) r := by
  rw [replyFinal_ready hw]
  exact formed_replied (win := st.window) hp hw hr

/-- The reply of a step whose deadline expired (R111). -/
def Step.timedOut (st : Step) : Reply :=
  { outcome := .timeout, text := [], truncated := false, elapsed := st.clock }

/-- A time-out at a step that waits for no window (R111). -/
theorem replyTimeout_ready (hw : st.window ≠ .scheduled ∧ st.window ≠ .opened) : s.replyTimeout b st
    = (s.setBay b { s.bay b with flight := .step (st.replied st.timedOut) }).formResult b := by
  unfold State.replyTimeout
  simp only
  split
  · next h _ => exact absurd h hw.1
  · next h => exact absurd h hw.2
  · rfl

theorem replyTimeout_measure (hw : st.window = .opened
    ∨ st.window = .scheduled ∧ ∃ w, s.windowOf st.tag = some w ∧ w.anchor = .atSend) :
    s.replyTimeout b st
      = s.setBay b { s.bay b with link := .measuring, flight := .step (st.replied st.timedOut) } := by
  unfold State.replyTimeout
  rcases hw with h | ⟨h, w, hw, ha⟩
  · simp only [h]; rfl
  · simp only [h, hw, ha]; rfl

/-- A window anchored at a reply that never came does not open (R111). -/
theorem replyTimeout_unopened (h : st.window = .scheduled) (hw : s.windowOf st.tag = some w)
    (ha : w.anchor = .atReply) : s.replyTimeout b st
      = (s.setBay b { s.bay b with
          flight := .step { st.replied st.timedOut with window := .notOpened } }).formResult b := by
  unfold State.replyTimeout
  simp only [h, hw, ha]
  rfl

theorem replyTimeout_formed (hp : (s.bay b).power = .on)
    (hw : st.window ≠ .scheduled ∧ st.window ≠ .opened)
    (hr : finalResult b st st.timedOut (st.window.summary (s.windowOf st.tag)) = r) :
    s.replyTimeout b st = formedAt s b (s.bay b) r := by
  rw [replyTimeout_ready hw]
  exact formed_replied (win := st.window) hp hw hr

theorem exec_replyDeadlineExpiry {m : Timer} (hl : (s.bay b).link = .awaiting)
    (hf : (s.bay b).flight = .step st) (hd : st.deadline = .running m) :
    exec (.replyDeadlineExpiry b) s = .next (s.replyTimeout b st) := by
  change execReplyDeadlineExpiry b s = _
  unfold execReplyDeadlineExpiry
  rw [hl, hf]
  simp only [hd]

/-- Settles O40, by what the step's window waits for. -/
theorem deadlineExpiryTimesOut : Obligations.DeadlineExpiryTimesOut := by
  intro b s st m hp hl hf hd reply done
  rw [exec_replyDeadlineExpiry hl hf hd]
  refine ⟨fun h => ?_, fun w h => ?_, fun h => ?_, fun h => ?_⟩
  · rw [replyTimeout_formed (r := finalResult b st reply none) hp (by simp [h]) (by rw [h]; rfl)]
  · rw [replyTimeout_formed (r := finalResult b st reply (some w)) hp (by simp [h]) (by rw [h]; rfl)]
  · rcases h with h | ⟨h, w, hw, ha⟩
    · rw [replyTimeout_formed (r := finalResult b st reply (neverOpened s st.tag)) hp (by simp [h])
        (by rw [h]; rfl)]
    · rw [replyTimeout_unopened h hw ha]
      exact congrArg Host.Outcome.next (formed_replied (win := .notOpened) hp (by simp) rfl)
  · rw [replyTimeout_measure h]
    rfl

/-! ## Matching finals and interims (R79, R80, R109, R110) -/

theorem matching_awaiting (hl : (s.bay b).link = .awaiting) (hf : (s.bay b).flight = .step st) :
    (s.bay b).matching st.token = some st := by
  unfold Bay.matching
  rw [hl, hf]
  exact if_pos rfl

theorem route_final (hl : (s.bay b).link = .awaiting) (hf : (s.bay b).flight = .step st) :
    s.route b (.final st.token text cut) = s.replyFinal b st
      { outcome := replyOutcome text, text := text, truncated := cut, elapsed := st.clock } := by
  simp only [State.route, matching_awaiting hl hf]

theorem route_interim (hl : (s.bay b).link = .awaiting) (hf : (s.bay b).flight = .step st) :
    s.route b (.interim st.token text cut) = s.replyInterim b st text cut := by
  simp only [State.route, matching_awaiting hl hf]

/-- An interim that no exchange reports extends the step alone. -/
theorem replyInterim_unreported (h : s.reportsInterim st.tag = false) :
    s.replyInterim b st text cut
      = s.setBay b { s.bay b with flight := .step st.extended } := by
  simp only [State.replyInterim, h, Bool.false_eq_true, if_false]
  rfl

/-- An interim of an exchange that reports them is handed to the Collation Buffer. -/
theorem replyInterim_reported (h : s.reportsInterim st.tag = true) :
    s.replyInterim b st text cut
      = (s.collate (interimOf b st.extended text cut)).1.setBay b { s.bay b with
          flight := .step (st.extended.told (s.collate (interimOf b st.extended text cut)).2) } := by
  simp only [State.replyInterim, h, if_true, modBay_eq, collate_bay]

theorem extended_keeps (st : Step) : st.extended.seating = st.seating
    ∧ st.extended.interimsDropped = st.interimsDropped ∧ st.extended.clock = st.clock := by
  unfold Step.extended
  split <;> exact ⟨rfl, rfl, rfl⟩

theorem matching_none (h : (s.bay b).link ≠ .awaiting
    ∨ ∀ st, (s.bay b).flight = .step st → st.token ≠ k) : (s.bay b).matching k = none := by
  cases hm : (s.bay b).matching k with
  | none => rfl
  | some st =>
    unfold Bay.matching at hm
    split at hm
    · next st' hl hf =>
      split at hm
      · next ht =>
        rcases h with h | h
        · exact absurd hl h
        · exact absurd ht (h st' hf)
      · cases hm
    · cases hm

/-- Settles O39: the final by what the window waits for, the interim by the exchange's report flag, and
the stray. -/
theorem matchingFinalEndsTheReply : Obligations.MatchingFinalEndsTheReply := by
  refine ⟨?_, ?_, fun b s tok text cut h => ?_⟩
  · intro b s st text cut hp hl hf t reply done
    have ht : t = s.replyFinal b st reply := route_final hl hf
    rw [ht]
    refine ⟨fun h => ?_, fun w h => ?_, fun h => ?_, fun h => ?_, fun w h hw ha => ?_,
      fun w h hw ha => ⟨fun hd => ?_, fun hd hs => ?_, fun hd hs => ?_⟩⟩
    · exact replyFinal_formed hp (by simp [h]) (by rw [h]; rfl)
    · exact replyFinal_formed hp (by simp [h]) (by rw [h]; rfl)
    · exact replyFinal_formed hp (by simp [h]) (by rw [h]; rfl)
    · exact replyFinal_measure (.inl h)
    · exact replyFinal_measure (.inr ⟨h, w, hw, ha⟩)
    · rw [replyFinal_start h hw ha, startWindow_later hd,
        formResult_waiting (st := done) (by rw [setBay_bay_same]; rfl) (.inl h)]
      rfl
    · have ho := openWindow_sampling (y := { s.bay b with
        link := .measuring, flight := .step (st.replied reply) }) (w := w) rfl hs
      rw [replyFinal_start h hw ha, startWindow_now hd, ho,
        formResult_waiting (st := { done with window := .opened }) (by rw [setBay_bay_same]; rfl)
          (.inr rfl)]
      rfl
    · have ho := openWindow_not_sampling (y := { s.bay b with
        link := .measuring, flight := .step (st.replied reply) }) (w := w) rfl hs
      rw [replyFinal_start h hw ha, startWindow_now hd, ho]
      exact formResult_formedAt (st := { done with window := .notOpened }) (rp := reply) hp rfl rfl
        ⟨by simp, by simp⟩ (finalOf_notOpened s b done reply)
  · intro b s st text cut hl hf t ext r
    have ht : t = s.replyInterim b st text cut := route_interim hl hf
    have hr : interimOf b st.extended text cut = r := by
      obtain ⟨h1, h2, h3⟩ := extended_keeps st
      simp only [interimOf, extended_tag, h1, h2, h3]
      rfl
    rw [ht]
    refine ⟨fun h => ?_, fun x hx h => ?_⟩
    · refine replyInterim_unreported ?_
      unfold State.reportsInterim
      cases hx : s.exchange? st.tag with
      | none => rfl
      | some x => exact h x hx
    · have hrep : s.reportsInterim st.tag = true := by simp only [State.reportsInterim, hx, h]
      rw [replyInterim_reported hrep, hr]
      obtain ⟨-, h2, -⟩ := extended_keeps st
      unfold Step.told
      rw [h2]
      rfl
  · have hm := matching_none h
    simp only [State.route, hm]
    exact ⟨rfl, rfl⟩

end Sys2Proof.Machine
end

section
/-! PROOF. The Collation Buffer (chapter 8): placing, the age tick, the taking of the head, and placement
passes. -/

namespace Sys2Proof.Machine

open Sys2Proof.Claims

variable {s t : State} {b b' : BayId} {e : Entry} {es es' rest : List Entry} {r : Result}
  {rs placed : List Result} {y : Bay} {x : Exchange} {u : Tag}

/-! ## The three cases of a placing (Table 8.2) -/

theorem collate_placed (h : placeIn r s.clb.entries = some es) :
    s.collate r = (({ s with clb := { s.clb with entries := es } } : State).retest, true) := by
  simp only [State.collate, h]

theorem collate_unplaced (h : placeIn r s.clb.entries = none) : (s.collate r).2 = false
    ∧ (s.collate r).1.clb.entries = s.clb.entries
    ∧ (s.collate r).1.clb.hold = s.clb.hold ++ (if r.kind = .final then [r] else []) := by
  unfold State.collate
  simp only [h]
  cases hk : r.kind with
  | final => exact ⟨rfl, rfl, rfl⟩
  | interim => exact ⟨rfl, rfl, (List.append_nil _).symm⟩

/-- A handover places its result as the Collation Buffer does. -/
theorem handOver_collate : (s.handOver r).2 = (s.collate r).2
    ∧ (s.handOver r).1.clb.entries = (s.collate r).1.clb.entries
    ∧ (s.handOver r).1.clb.hold = (s.collate r).1.clb.hold := by
  cases h : placeIn r s.clb.entries with
  | some es =>
    have h' : placeIn r (s.modExchange r.tag fun x => x.finalFormed r.bay).clb.entries = some es := h
    rw [State.handOver, collate_placed h, collate_placed h']
    exact ⟨rfl, rfl, rfl⟩
  | none =>
    have h' : placeIn r (s.modExchange r.tag fun x => x.finalFormed r.bay).clb.entries = none := h
    obtain ⟨h1, h2, h3⟩ := collate_unplaced h
    obtain ⟨h1', h2', h3'⟩ := collate_unplaced h'
    exact ⟨h1'.trans h1.symm, h2'.trans h2.symm, h3'.trans h3.symm⟩

theorem finalFormed_spec (x : Exchange) (b : BayId) :
    (∀ b', inSet (x.finalFormed b).pending b' = (inSet x.pending b' && decide (b' ≠ b)))
    ∧ ((x.finalFormed b).pending = 0 → (x.finalFormed b).state = .draining)
    ∧ ((x.finalFormed b).pending ≠ 0 → (x.finalFormed b).state = x.state) := by
  refine ⟨fun b' => ?_, fun h => if_pos h, fun h => if_neg h⟩
  exact (inSet_withoutBay x.pending b' b).trans (by rw [decide_not])

/-- Settles O42, by the three cases of Table 8.2 and the leaving of the pending set. -/
theorem resultsArePlacedByTheFirstCase : Obligations.ResultsArePlacedByTheFirstCase := by
  intro s r k takes slot put fresh es
  obtain ⟨h1, h2, h3⟩ := handOver_collate (s := s) (r := r)
  refine ⟨fun hex => ?_, fun hall hl => ?_, fun hall hl => ?_, collate_eq, h1, h2, h3, fun x hx => ?_⟩
  · have hp : placeIn r s.clb.entries = some (mergeInto r s.clb.entries) := by
      rcases placeIn_cases (r := r) (es := s.clb.entries) with ⟨-, h⟩ | ⟨hn, -, -⟩ | ⟨hn, -, -⟩
      · exact h
      all_goals
        obtain ⟨e, he, ht⟩ := hex
        exact absurd ht (by rw [Bool.not_eq_true]; exact hn e he)
    rw [collate_placed hp]
    exact ⟨rfl, rfl, rfl⟩
  · have hp : placeIn r s.clb.entries = some (s.clb.entries ++ [Entry.openedWith r]) := by
      rcases placeIn_cases (r := r) (es := s.clb.entries) with ⟨⟨e, he, ht⟩, -⟩ | ⟨-, -, h⟩ | ⟨-, hn, -⟩
      · exact absurd ht (by rw [Bool.not_eq_true]; exact hall e he)
      · exact h
      · exact absurd hl (Nat.not_lt.mpr hn)
    rw [collate_placed hp]
    exact ⟨rfl, rfl, rfl⟩
  · refine collate_unplaced ?_
    rcases placeIn_cases (r := r) (es := s.clb.entries) with ⟨⟨e, he, ht⟩, -⟩ | ⟨-, hn, -⟩ | ⟨-, -, h⟩
    · exact absurd ht (by rw [Bool.not_eq_true]; exact hall e he)
    · exact absurd hn (Nat.not_lt.mpr hl)
    · exact h
  · have hx' : (s.handOver r).1.exchange? r.tag = some (x.finalFormed r.bay) := by
      rw [exchange?_handOver, hx, Option.map_some, if_pos (exchange?_tag hx)]
    obtain ⟨hp, hd, hk⟩ := finalFormed_spec x r.bay
    exact ⟨_, hx', hp, hd, hk, rfl, rfl, rfl⟩

/-! ## The due test of the head (R131, R132) -/

theorem hasFinal_iff : e.hasFinal b = true ↔ boardOf b = e.board
    ∧ ∃ r, e.slots.get (slotOf b) = some r ∧ r.kind = .final := by
  rw [Entry.hasFinal, Bool.and_eq_true, decide_eq_true_iff]
  refine and_congr Iff.rfl ?_
  cases e.slots.get (slotOf b) <;> simp [slotFinal]

theorem complete_iff : s.complete e = true ↔ ∃ x, s.exchange? e.tag = some x
    ∧ ∀ b, boardOf b = e.board → inSet x.target b = true → inSet x.reported b = false →
        ∃ r, e.slots.get (slotOf b) = some r ∧ r.kind = .final := by
  unfold State.complete
  cases hx : s.exchange? e.tag with
  | none => simp
  | some x =>
    simp only [List.all_eq_true, Option.some.injEq, exists_eq_left', Bool.or_eq_true,
      Bool.not_eq_true', Bool.and_eq_false_iff, decide_eq_false_iff_not, Bool.not_eq_false',
      hasFinal_iff]
    refine ⟨fun h b hb ht hr => ?_, fun h b _ => ?_⟩
    · rcases h b (mem_allBays b) with ((hn | hn) | hn) | hn
      · exact absurd hb hn
      · rw [ht] at hn; cases hn
      · rw [hr] at hn; cases hn
      · exact hn.2
    · by_cases hb : boardOf b = e.board
      · cases ht : inSet x.target b with
        | false => exact .inl (.inl (.inr rfl))
        | true =>
          cases hr : inSet x.reported b with
          | true => exact .inl (.inr rfl)
          | false => exact .inr ⟨hb, h b hb ht hr⟩
      · exact .inl (.inl (.inl hb))

theorem headDue_iff (he : s.clb.entries = e :: rest) : s.headDue = true ↔ e.sending = false
    ∧ (s.complete e = true ∨ (∃ e' ∈ rest, e'.sending = false ∧ s.complete e' = true)
      ∨ s.clb.pressure ≤ s.clb.entries.length ∨ s.clb.holdMs ≤ e.age
      ∨ e.syncMark = true ∨ e.queryMark = true) := by
  unfold State.headDue
  rw [he]
  simp only [Bool.and_eq_true, Bool.or_eq_true, Bool.not_eq_true', List.any_eq_true,
    decide_eq_true_eq, or_assoc]

theorem headDue_nil (he : s.clb.entries = []) : s.headDue = false := by
  simp only [State.headDue, he]

/-- Settles O43: the tick ages the entries, and the head is tested by Table 8.3. -/
theorem ageTickOffersTheDueHead : Obligations.AgeTickOffersTheDueHead := by
  intro s
  refine ⟨_, rfl, rfl, rfl, fun he => headDue_nil (by simp [he]), ?_⟩
  intro e rest he complete
  have h := headDue_iff (s := { s with clb := { s.clb with entries := s.clb.entries.map Entry.tick } })
    he
  have hc (e' : Entry) : State.complete
      { s with clb := { s.clb with entries := s.clb.entries.map Entry.tick } } e' = true
      ↔ complete e' := complete_iff
  simp only [hc] at h
  exact h

/-! ## The taking of the head (R134, R171) -/

theorem chooses_batch_iff : s.chooses .batch = true ↔ s.slc.transmitter = none ∧ s.slc.answers = []
    ∧ (∀ q rest, s.atu.queue = q :: rest → s.level q.2 ≠ 3) ∧ s.clb.offer = true := by
  have hlevel : s.noticeLevel = some 3 ↔ ∃ q rest, s.atu.queue = q :: rest ∧ s.level q.2 = 3 := by
    unfold State.noticeLevel
    cases s.atu.queue <;> simp
  have hchoice : s.choice = some .batch ↔ s.slc.answers = [] ∧ ¬ s.noticeLevel = some 3
      ∧ s.clb.offer = true := by
    unfold State.choice
    cases ha : s.slc.answers with
    | cons a as => simp
    | nil =>
      by_cases h3 : s.noticeLevel = some 3
      · simp [h3]
      · cases ho : s.clb.offer with
        | true => simp [h3]
        | false =>
          simp only [h3]
          by_cases h : s.noticeLevel = some 2 ∨ s.noticeLevel = some 1
          · simp [h]
          · cases hr : s.atu.ring <;> simp [h]
  rw [State.chooses, Bool.and_eq_true, Option.isNone_iff_eq_none, decide_eq_true_iff, hchoice, hlevel]
  simp only [not_exists, not_and, ne_eq]

theorem finalMarkOf_iff (hx : s.exchange? e.tag = some x) : s.finalMarkOf e rest = true
    ↔ x.pending = 0 ∧ (∀ f ∈ rest, f.tag ≠ e.tag) ∧ ∀ r ∈ s.clb.hold, r.tag ≠ e.tag := by
  simp only [State.finalMarkOf, hx, Bool.and_eq_true, decide_eq_true_eq, List.all_eq_true, and_assoc]

theorem exec_takeBatchEntry (hc : s.chooses .batch = true) (he : s.clb.entries = e :: rest) :
    exec .takeBatchEntry s = .next (({ s with clb := { s.clb with
      entries := s.takenHead e rest :: rest, offer := false } } : State).transmit .batch 0x81 e.tag
        ((s.takenHead e rest).payload (s.cancelledOf e.tag))) := by
  change execTakeBatchEntry s = _
  unfold execTakeBatchEntry
  rw [hc, he]

theorem exec_takeBatchEntry_not (h : s.chooses .batch = false ∨ s.clb.entries = []) :
    exec .takeBatchEntry s = .next s := by
  change execTakeBatchEntry s = _
  unfold execTakeBatchEntry
  split
  · next hc he =>
    rcases h with h | h
    · rw [h] at hc; cases hc
    · rw [h] at he; cases he
  · rfl

/-- Settles O44, by the arbiter's choice. -/
theorem takingFixesTheBatch : Obligations.TakingFixesTheBatch := by
  refine ⟨fun s e rest x ht ha ho hq he hx => ?_, fun s h => exec_takeBatchEntry_not ?_⟩
  · have hc : s.chooses .batch = true := chooses_batch_iff.mpr ⟨ht, ha, hq, ho⟩
    have hcan : s.cancelledOf e.tag = x.cancelled := by simp only [State.cancelledOf, hx]
    refine ⟨_, s.takenHead e rest, exec_takeBatchEntry hc he, rfl, rfl, finalMarkOf_iff hx, ?_, rfl, rfl,
      rfl, rfl⟩
    rw [hcan]
    rfl
  · by_cases hc : s.chooses .batch = true
    · obtain ⟨h1, h2, h3, h4⟩ := chooses_batch_iff.mp hc
      rcases h with h | h | ⟨q, rest, h, hl⟩ | h | h
      · exact absurd h1 h
      · exact absurd h2 h
      · exact absurd hl (h3 q rest h)
      · rw [h4] at h; cases h
      · exact .inr h
    · exact .inl (Bool.eq_false_iff.mpr hc)

/-! ## A placement pass (R115, R130) -/

/-- A result stands in its slot of an entry of its key. -/
def Slotted (es : List Entry) (r : Result) : Prop :=
  ∃ e ∈ es, e.tag = r.tag ∧ e.board = boardOf r.bay ∧ e.slots.get (slotOf r.bay) = some r

theorem placeIn_some (h : placeIn r es = some es') :
    ((∃ e ∈ es, e.takes r.tag (boardOf r.bay) = true) ∧ es' = mergeInto r es)
    ∨ (es.length < 8 ∧ es' = es ++ [Entry.openedWith r]) := by
  rcases placeIn_cases (r := r) (es := es) with ⟨hex, hp⟩ | ⟨-, hl, hp⟩ | ⟨-, -, hp⟩ <;> rw [hp] at h
  · exact .inl ⟨hex, by injection h with h; exact h.symm⟩
  · exact .inr ⟨hl, by injection h with h; exact h.symm⟩
  · cases h

theorem merge_slot (e : Entry) (r : Result) : (e.merge r).slots.get (slotOf r.bay) = some r := by
  simp [Entry.merge, Vector.get_eq_getElem]

theorem merge_slot_other {q : Result} (h : slotOf q.bay ≠ slotOf r.bay) :
    (e.merge r).slots.get (slotOf q.bay) = e.slots.get (slotOf q.bay) := by
  have hv : (slotOf r.bay).val ≠ (slotOf q.bay).val := fun e => h (Fin.ext e.symm)
  simp [Entry.merge, Vector.get_eq_getElem, hv]

theorem openedWith_slot (r : Result) : (Entry.openedWith r).slots.get (slotOf r.bay) = some r := by
  simp [Entry.openedWith, Vector.get_eq_getElem]

/-- A result placed stands in its slot. -/
theorem slotted_placed (h : placeIn r es = some es') : Slotted es' r := by
  rcases placeIn_some h with ⟨⟨e, he, ht⟩, rfl⟩ | ⟨-, rfl⟩
  · obtain ⟨htag, hboard, -⟩ := takes_iff.mp ht
    refine ⟨e.merge r, List.mem_map.mpr ⟨e, he, if_pos ht⟩, htag, hboard, merge_slot e r⟩
  · exact ⟨_, List.mem_append_right _ (List.mem_singleton_self _), rfl, rfl, openedWith_slot r⟩

/-- A result that stands in its slot is not moved by the placing of another. -/
theorem slotted_keeps {q : Result} (h : placeIn r es = some es') (hq : Slotted es q)
    (hne : (q.tag, q.bay) ≠ (r.tag, r.bay)) : Slotted es' q := by
  obtain ⟨e, he, htag, hboard, hslot⟩ := hq
  rcases placeIn_some h with ⟨-, rfl⟩ | ⟨-, rfl⟩
  · by_cases ht : e.takes r.tag (boardOf r.bay) = true
    · obtain ⟨htag', hboard', -⟩ := takes_iff.mp ht
      have hs : slotOf q.bay ≠ slotOf r.bay := fun hs => hne (by
        rw [← htag, htag', bay_of_board_slot (hboard.symm.trans hboard') hs])
      exact ⟨e.merge r, List.mem_map.mpr ⟨e, he, if_pos ht⟩, htag, hboard,
        (merge_slot_other hs).trans hslot⟩
    · exact ⟨e, List.mem_map.mpr ⟨e, he, if_neg ht⟩, htag, hboard, hslot⟩
  · exact ⟨e, List.mem_append_left _ he, htag, hboard, hslot⟩

theorem placeIn_length (h : placeIn r es = some es') :
    es.length ≤ es'.length ∧ (es.length ≤ 8 → es'.length ≤ 8) := by
  rcases placeIn_some h with ⟨-, rfl⟩ | ⟨hl, rfl⟩
  · simp [mergeInto]
  · simp; omega

/-- Results placed one after another. -/
theorem placedAll_spec (h : placed.foldlM (fun es r => placeIn r es) es = some es') :
    es.length ≤ es'.length ∧ (es.length ≤ 8 → es'.length ≤ 8)
    ∧ (∀ q, Slotted es q → (∀ r ∈ placed, (q.tag, q.bay) ≠ (r.tag, r.bay)) → Slotted es' q)
    ∧ ((placed.map fun r => (r.tag, r.bay)).Nodup → ∀ r ∈ placed, Slotted es' r) := by
  induction placed generalizing es with
  | nil =>
    obtain rfl : es = es' := by simpa using h
    exact ⟨le_rfl, id, fun q hq _ => hq, fun _ r hr => by cases hr⟩
  | cons r rs ih =>
    rw [List.foldlM_cons] at h
    obtain ⟨es1, h1, h2⟩ := Option.bind_eq_some_iff.mp h
    obtain ⟨i1, i2, i3, i4⟩ := ih h2
    obtain ⟨l1, l2⟩ := placeIn_length h1
    refine ⟨l1.trans i1, fun hl => i2 (l2 hl), fun q hq hn => ?_, fun hd q hq => ?_⟩
    · exact i3 q (slotted_keeps h1 hq (hn r List.mem_cons_self))
        fun r' hr' => hn r' (List.mem_cons_of_mem _ hr')
    · rw [List.map_cons, List.nodup_cons] at hd
      rcases List.mem_cons.mp hq with rfl | hq
      · refine i3 q (slotted_placed h1) fun r' hr' he => hd.1 ?_
        rw [he]
        exact List.mem_map_of_mem hr'
      · exact i4 hd.2 q hq

/-! ## The bays of a placement pass (R115) -/

theorem dropHeld_steps (u : Tag) (ps : List Place) :
    (dropHeld u ps).filter Place.isStep = ps.filter Place.isStep := by
  induction ps with
  | nil => rfl
  | cons p ps ih =>
    cases p with
    | step st =>
      rw [dropHeld, List.filter_cons_of_pos rfl, List.filter_cons_of_pos rfl, ih]
    | held r =>
      by_cases h : r = u <;> simp [dropHeld, Place.isStep, h, ih]

/-- The freeing of a held result touches no step. -/
theorem freeHeld_steps (y : Bay) (u : Tag) :
    ((y.freeHeld u).flight.isStep = true → (y.freeHeld u).flight = y.flight)
    ∧ (y.flight.isStep = true → (y.freeHeld u).flight = y.flight)
    ∧ (y.freeHeld u).places.filter Place.isStep = y.places.filter Place.isStep
    ∧ (y.freeHeld u).power = y.power := by
  obtain ⟨hf, h⟩ | ⟨-, h⟩ := freeHeld_eq y u <;> rw [h]
  · obtain ⟨k1, -, -, k4, k5, -⟩ := relink_keeps { y with flight := .empty }
    rw [k1, k4, k5]
    exact ⟨fun h => Bool.noConfusion h,
      fun h => Bool.noConfusion ((congrArg Flight.isStep hf).symm.trans h), rfl, rfl⟩
  · obtain ⟨k1, -, -, k4, k5, -⟩ := relink_keeps { y with places := dropHeld u y.places }
    rw [k1, k4, k5]
    exact ⟨fun _ => rfl, fun _ => rfl, dropHeld_steps u y.places, rfl⟩

theorem freed_steps (y : Bay) (b : BayId) (placed : List Result) :
    ((y.freed b placed).flight.isStep = true → (y.freed b placed).flight = y.flight)
    ∧ (y.freed b placed).places.filter Place.isStep = y.places.filter Place.isStep
    ∧ (y.freed b placed).power = y.power := by
  unfold Bay.freed
  generalize placed.filter (fun r => decide (r.bay = b)) = l
  induction l generalizing y with
  | nil => exact ⟨fun _ => rfl, rfl, rfl⟩
  | cons r l ih =>
    obtain ⟨h1, -, h3, h4⟩ := freeHeld_steps y r.tag
    obtain ⟨i1, i2, i3⟩ := ih (y.freeHeld r.tag)
    rw [List.foldl_cons]
    refine ⟨fun h => ?_, i2.trans h3, i3.trans h4⟩
    have hf := i1 h
    rw [hf] at h ⊢
    exact h1 h

theorem freed_untouched (h : ∀ r ∈ placed, r.bay ≠ b) : y.freed b placed = y := by
  have hn : placed.filter (fun r => decide (r.bay = b)) = [] :=
    List.filter_eq_nil_iff.mpr fun r hr => by simpa using h r hr
  rw [Bay.freed, hn]
  rfl

theorem placeHeld_rest : s.placeHeld.slc = s.slc ∧ s.placeHeld.atu = s.atu
    ∧ s.placeHeld.exchanges = s.exchanges ∧ s.placeHeld.groups = s.groups := by
  obtain ⟨-, -, h3, h4, h5, h6, -⟩ := placeHeldFrom_frame (rs := s.clb.hold) (s := s)
  exact ⟨h6, h5, h4, h3⟩

/-- Settles O46, by the pass result by result. -/
theorem placementPassFillsTheEntries : Obligations.PlacementPassFillsTheEntries := by
  intro s hl
  obtain ⟨placed, hhold, hent, hbay, hstop, -⟩ := placeHeld_spec s
  obtain ⟨h1, h2, -, h4⟩ := placedAll_spec hent
  obtain ⟨hslc, hatu, hx, hg⟩ := placeHeld_rest (s := s)
  have hunplaced {r : Result} {rest : List Result} (h : s.placeHeld.clb.hold = r :: rest) :
      (∀ e ∈ s.placeHeld.clb.entries, e.takes r.tag (boardOf r.bay) = false)
      ∧ 8 ≤ s.placeHeld.clb.entries.length := by
    have hn := hstop r rest h
    rcases placeIn_cases (r := r) (es := s.placeHeld.clb.entries) with ⟨-, hp⟩ | ⟨-, -, hp⟩ | ⟨hf, h8, -⟩
    · rw [hp] at hn; cases hn
    · rw [hp] at hn; cases hn
    · exact ⟨hf, h8⟩
  refine ⟨s.placeHeld.retest, placed, rfl, hhold, hent, fun hd => h4 ?_, hbay, fun b hb => ?_, ?_, h2 hl,
    h1, fun r rest h e he hk => ?_, fun b => ?_, hslc, hatu, hx, hg⟩
  · rw [hhold, List.map_append] at hd
    exact hd.of_append_left
  · exact (hbay b).trans (freed_untouched hb)
  · change s.placeHeld.clb.hold = [] ∨ s.placeHeld.clb.entries.length = 8
    cases hh : s.placeHeld.clb.hold with
    | nil => exact .inl rfl
    | cons r rest => exact .inr (Nat.le_antisymm (h2 hl) (hunplaced hh).2)
  · obtain ⟨hf, -⟩ := hunplaced h
    have := hf e he
    rw [takes_iff.mpr hk] at this
    cases this
  · have h := freed_steps (s.bay b) b placed
    rw [← hbay b] at h
    exact h

end Sys2Proof.Machine
end

section
/-! PROOF. Target resolution and verdict lists, SEND, and the Group Table's requests at their taking. -/

namespace Sys2Proof.Machine

open Sys2Proof.Claims

variable {s t : State} {b : BayId} {y : Bay} {tag : Tag} {p : List Byte} {k : Byte} {g : Target}
  {S : BaySet} {j judge : BayId → Option Reason} {act : BaySet → State → State} {e : Status}
  {pins : List Pin}

/-! ## Resolution (R86, R87, Table 6.1) -/

theorem namesAbsent_iff {n : Nat} :
    namesAbsent n S = true ↔ ∃ b : BayId, inSet S b = true ∧ n ≤ b.val := by
  simp [namesAbsent, mem_allBays]

theorem pinsRepeat_iff : pinsRepeat pins = true ↔ ¬ (pins.map fun q => q.bay).Nodup := by
  induction pins with
  | nil => simp [pinsRepeat]
  | cons q qs ih =>
    rw [pinsRepeat, Bool.or_eq_true, ih, List.map_cons, List.nodup_cons]
    simp only [List.any_eq_true, decide_eq_true_eq, List.mem_map, not_and_or, not_not]

theorem pinsRefused_iff : s.pinsRefused pins = true
    ↔ (∃ q ∈ pins, s.bayCount ≤ q.bay) ∨ ¬ (pins.map fun q => q.bay).Nodup := by
  rw [State.pinsRefused, Bool.or_eq_true, pinsRepeat_iff]
  simp only [List.any_eq_true, decide_eq_true_eq]

theorem resolve_of_form_error (h : s.resolveForm g.form = .error e) : s.resolve g = .error e := by
  simp only [State.resolve, h]

theorem resolve_of_bad (h : s.resolveForm g.form = .ok S) (hb : s.pinsRefused g.pins = true ∨ S = 0) :
    s.resolve g = .error .badTarget := by
  simp only [State.resolve, h]
  by_cases hp : s.pinsRefused g.pins = true
  · rw [if_pos hp]
  · rw [if_neg hp, if_pos (hb.resolve_left hp)]

theorem resolve_of_good (h : s.resolveForm g.form = .ok S) (hp : ¬ s.pinsRefused g.pins = true)
    (hS : S ≠ 0) : s.resolve g = .ok S := by
  simp only [State.resolve, h]
  rw [if_neg hp, if_neg hS]

theorem resolveForm_bays (h : ¬ ∃ b : BayId, inSet S b = true ∧ s.bayCount ≤ b.val) :
    s.resolveForm (.bays S) = .ok S :=
  if_neg fun hn => h (namesAbsent_iff.mp hn)

theorem resolveForm_absent (h : ∃ b : BayId, inSet S b = true ∧ s.bayCount ≤ b.val) :
    s.resolveForm (.bays S) = .error .badTarget :=
  if_pos (namesAbsent_iff.mpr h)

theorem resolveForm_group (n : Fin 16) : s.resolveForm (.group n.val)
    = if (s.group n).defined then .ok (s.group n).bays else .error .unknownGroup :=
  dif_pos n.isLt

theorem resolveForm_group_high {n : Nat} (h : 16 ≤ n) :
    s.resolveForm (.group n) = .error .badTarget :=
  dif_neg (Nat.not_lt.mpr h)

/-! ## Verdict lists (R88, R89) -/

theorem stale_iff : s.stale pins b = true
    ↔ ∃ q ∈ pins, q.bay = b.val ∧ q.seating ≠ (s.bay b).seating := by
  simp only [State.stale, List.any_eq_true, Bool.and_eq_true, decide_eq_true_eq]

theorem refused_eq_nil_iff : (verdictsOf S j).refused = [] ↔ ∀ b, inSet S b = true → j b = none := by
  rw [List.eq_nil_iff_forall_not_mem]
  constructor
  · intro h b hb
    refine Option.eq_none_iff_forall_not_mem.mpr fun r hr => h (b, r) (mem_refused.mpr ⟨hb, hr⟩)
  · rintro h ⟨b, r⟩ hm
    obtain ⟨hb, hr⟩ := mem_refused.mp hm
    rw [h b hb] at hr
    cases hr

theorem accepted_eq_iff : (verdictsOf S j).accepted = S ↔ (verdictsOf S j).refused = [] := by
  rw [refused_eq_nil_iff]
  constructor
  · intro h b hb
    exact (accepted_iff.mp (h ▸ hb)).2
  · refine fun h => baySet_ext fun b => Bool.eq_iff_iff.mpr ?_
    rw [accepted_iff]
    exact ⟨fun hb => hb.1, fun hb => ⟨hb, h b hb⟩⟩

/-- The refused bays stand in ascending order: the list is a pass over all bays in that order. -/
theorem refused_ascending : ((verdictsOf S j).refused.map fun x => x.1).Pairwise (· < ·) := by
  rw [List.pairwise_map, verdictsOf]
  refine List.Pairwise.filterMap _ (fun a a' hlt x hx x' hx' => ?_)
    (List.sortedLT_finRange 24).pairwise
  have bayOf {a : BayId} {x : BayId × Reason}
      (h : (if inSet S a then (j a).map fun r => (a, r) else none) = some x) : x.1 = a := by
    split at h
    · obtain ⟨r, -, rfl⟩ := Option.map_eq_some_iff.mp h
      rfl
    · cases h
  rw [bayOf hx, bayOf hx']
  exact hlt

/-- The status of a verdict list of a set that is not empty. -/
theorem status_spec (hS : S ≠ 0) :
    ((verdictsOf S j).status = .ok ↔ (verdictsOf S j).accepted = S)
    ∧ ((verdictsOf S j).status = .noneAccepted ↔ (verdictsOf S j).accepted = 0)
    ∧ ((verdictsOf S j).status = .partialOk
        ↔ (verdictsOf S j).accepted ≠ 0 ∧ (verdictsOf S j).refused ≠ []) := by
  rw [accepted_eq_iff, Verdicts.status]
  by_cases h0 : (verdictsOf S j).accepted = 0
  · have hr : (verdictsOf S j).refused ≠ [] := fun h => hS ((accepted_eq_iff.mpr h).symm.trans h0)
    rw [if_pos h0]
    simp [h0, hr]
  · rw [if_neg h0]
    cases hl : (verdictsOf S j).refused
    · exact ⟨⟨fun _ => rfl, fun _ => rfl⟩, ⟨fun h => absurd h (by decide), fun h => absurd h h0⟩,
        ⟨fun h => absurd h (by decide), fun h => absurd rfl h.2⟩⟩
    · exact ⟨⟨fun h => absurd h (by simp), fun h => absurd h (by simp)⟩,
        ⟨fun h => absurd h (by simp), fun h => absurd h h0⟩,
        ⟨fun _ => ⟨h0, List.cons_ne_nil _ _⟩, fun _ => rfl⟩⟩

/-! ## A request whose target fails (R87) -/

theorem multiBay_refused (h : s.resolve g = .error e) :
    (atTaking s).multiBay k tag g judge act = (atTaking s).answer k tag e .none := by
  have hr : (atTaking s).resolve g = .error e := h
  simp only [State.multiBay, hr]

theorem exec_powerOn_refused {r : PowerOnRequest} (ha : Arrives s p) (ht : tag ≠ 0)
    (hp : readPowerOn p = some r) (hm : r.meaningful = true) (h : s.resolve r.target = .error e) :
    exec (.powerOn tag p) s = .next ((atTaking s).answer 0x06 tag e .none) := by
  change Host.Outcome.next (s.arrives 0x06 tag p (State.requestPowerOn tag p)) = _
  rw [arrives_atTaking ha, State.requestPowerOn, hp, checked_passed ht hm, multiBay_refused h]

theorem exec_powerOff_refused (ha : Arrives s p) (ht : tag ≠ 0) (hp : readTargetOnly p = some g)
    (hm : g.meaningful = true) (h : s.resolve g = .error e) :
    exec (.powerOff tag p) s = .next ((atTaking s).answer 0x07 tag e .none) := by
  change Host.Outcome.next (s.arrives 0x07 tag p (State.requestPowerOff tag p)) = _
  rw [arrives_atTaking ha, State.requestPowerOff, hp, checked_passed ht hm, multiBay_refused h]

theorem exec_zero_refused (ha : Arrives s p) (ht : tag ≠ 0) (hp : readTargetOnly p = some g)
    (hm : g.meaningful = true) (h : s.resolve g = .error e) :
    exec (.zero tag p) s = .next ((atTaking s).answer 0x08 tag e .none) := by
  change Host.Outcome.next (s.arrives 0x08 tag p (State.requestZero tag p)) = _
  rw [arrives_atTaking ha, State.requestZero, hp, checked_passed ht hm, multiBay_refused h]

theorem exec_configureBay_refused {r : ConfigureBayRequest} (ha : Arrives s p) (ht : tag ≠ 0)
    (hp : readConfigureBay p = some r) (hm : r.meaningful = true)
    (h : s.resolve r.target = .error e) :
    exec (.configureBay tag p) s = .next ((atTaking s).answer 0x03 tag e .none) := by
  have hr : (atTaking s).resolve r.target = .error e := h
  change Host.Outcome.next (s.arrives 0x03 tag p (State.requestConfigureBay tag p)) = _
  rw [arrives_atTaking ha, State.requestConfigureBay, hp, checked_passed ht hm]
  simp only [hr]

theorem exec_ackAttention_refused {r : AckRequest} (ha : Arrives s p) (ht : tag ≠ 0)
    (hp : readAck p = some r) (hm : r.meaningful = true) (h : s.resolve r.target = .error e) :
    exec (.ackAttention tag p) s = .next ((atTaking s).answer 0x0D tag e .none) := by
  have hr : (atTaking s).resolve r.target = .error e := h
  change Host.Outcome.next (s.arrives 0x0D tag p (State.requestAckAttention tag p)) = _
  rw [arrives_atTaking ha, State.requestAckAttention, hp, checked_passed ht hm]
  simp only [hr]

/-- Settles O33: the form is checked before the pin list and the pin list before emptiness; then each
request answers a failing target alone, and a verdict list is a pass over all bays in order. -/
theorem targetChecksInOrder : Obligations.TargetChecksInOrder := by
  refine ⟨fun s pins => ?_, fun s tag p e ha ht => ?_, fun s pins b => stale_iff, fun S j => ?_⟩
  · intro badPins
    have hbad : badPins ↔ s.pinsRefused pins = true := pinsRefused_iff.symm
    refine ⟨fun S => ?_, fun n h => ?_, fun n => ?_⟩
    · intro absent
      exact ⟨fun h => resolve_of_form_error (resolveForm_absent h),
        fun h hb => resolve_of_bad (resolveForm_bays h) (hb.imp_left hbad.mp),
        fun h hb hS => resolve_of_good (resolveForm_bays h) (fun hp => hb (hbad.mpr hp)) hS⟩
    · exact resolve_of_form_error (resolveForm_group_high h)
    · have hform := resolveForm_group (s := s) n
      refine ⟨fun h => ?_, fun h hb => ?_, fun h hb hS => ?_⟩ <;> rw [h] at hform
      · exact resolve_of_form_error hform
      · exact resolve_of_bad hform (hb.imp_left hbad.mp)
      · exact resolve_of_good hform (fun hp => hb (hbad.mpr hp)) hS
  · exact ⟨fun r hp hm h => exec_powerOn_refused ha ht hp hm h,
      fun g hp hm h => ⟨exec_powerOff_refused ha ht hp hm h, exec_zero_refused ha ht hp hm h⟩,
      fun r hp hm h => exec_configureBay_refused ha ht hp hm h,
      fun r hp hm h => exec_ackAttention_refused ha ht hp hm h⟩
  · exact ⟨fun b => accepted_iff, fun b r => mem_refused, refused_ascending, status_spec⟩

/-! ## SEND (R100, R101) -/

/-- A text that check 4 of Table 7.3 refuses. -/
def BadText (text : List Byte) : Prop :=
  text = [] ∨ 120 < text.length ∨ (0x0D : Byte) ∈ text ∨ (0x0A : Byte) ∈ text

theorem textAllowed_iff {text : List Byte} : textAllowed text = true ↔ ¬ BadText text := by
  have hpos : 1 ≤ text.length ↔ text ≠ [] := List.length_pos_iff
  have hall : (text.all fun x => decide (x ≠ 0x0D) && decide (x ≠ 0x0A)) = true
      ↔ (0x0D : Byte) ∉ text ∧ (0x0A : Byte) ∉ text := by
    simp only [List.all_eq_true, Bool.and_eq_true, decide_eq_true_eq]
    exact ⟨fun h => ⟨fun hm => (h _ hm).1 rfl, fun hm => (h _ hm).2 rfl⟩,
      fun h x hx => ⟨fun hx' => h.1 (hx' ▸ hx), fun hx' => h.2 (hx' ▸ hx)⟩⟩
  rw [textAllowed, Bool.and_eq_true, Bool.and_eq_true, hall, decide_eq_true_eq, decide_eq_true_eq,
    hpos, Config.textBytes, BadText, not_or, not_or, not_or, Nat.not_lt, and_assoc]

theorem judgeSend_eq (y : Bay) : y.judgeSend =
    if y.power ≠ .on then some .notReady
    else if 4 ≤ y.places.length then some .queueFull
    else none := by
  unfold Bay.judgeSend
  cases y.power <;> rfl

/-- The checks 2 to 4 of Table 7.3 in their order. -/
theorem sendRefusal_cases {text : List Byte} :
    ((s.exchange? tag).isSome = true → s.sendRefusal tag text = some .duplicateTag)
    ∧ (¬ (s.exchange? tag).isSome = true → 32 ≤ s.exchanges.length →
        s.sendRefusal tag text = some .tableFull)
    ∧ (¬ (s.exchange? tag).isSome = true → ¬ 32 ≤ s.exchanges.length →
        BadText text → s.sendRefusal tag text = some .badText)
    ∧ (¬ (s.exchange? tag).isSome = true → ¬ 32 ≤ s.exchanges.length →
        ¬ BadText text → s.sendRefusal tag text = none) := by
  have hallowed : (!textAllowed text) = true ↔ BadText text := by
    rw [Bool.not_eq_true', Bool.eq_false_iff, ne_eq, textAllowed_iff, not_not]
  exact ⟨fun h => if_pos h, fun h hf => (if_neg h).trans (if_pos hf),
    fun h hf hb => (if_neg h).trans ((if_neg hf).trans (if_pos (hallowed.mpr hb))),
    fun h hf hb => (if_neg h).trans ((if_neg hf).trans (if_neg fun hn => hb (hallowed.mp hn)))⟩

/-- SEND taken past its payload's checks. -/
theorem exec_send {r : SendRequest} (ha : Arrives s p) (ht : tag ≠ 0) (hp : readSend p = some r)
    (hm : r.meaningful = true) : exec (.send tag p) s
      = .next (match s.sendRefusal tag r.text with
          | some e => (atTaking s).answer 0x09 tag e .none
          | none =>
            match r.windowSpec with
            | .error e => (atTaking s).answer 0x09 tag e .none
            | .ok w => (atTaking s).multiBay 0x09 tag r.target (fun b => (s.bay b).judgeSend)
                (State.startExchange r tag w)) := by
  change Host.Outcome.next (s.arrives 0x09 tag p (State.requestSend tag p)) = _
  rw [arrives_atTaking ha, State.requestSend, hp, checked_passed ht hm]
  rfl

/-- An accepted SEND changes the exchange table and the bays alone. -/
theorem startExchange_frame (r : SendRequest) (tag : Tag) (w : Option WindowSpec) (S : BaySet) :
    (s.startExchange r tag w S).exchanges
      = s.exchanges ++ (if S = 0 then [] else [r.record tag w S])
    ∧ (s.startExchange r tag w S).clb = s.clb ∧ (s.startExchange r tag w S).atu = s.atu
    ∧ (s.startExchange r tag w S).groups = s.groups
    ∧ (s.startExchange r tag w S).slc = s.slc := by
  unfold State.startExchange
  by_cases hS : S = 0
  · rw [if_pos hS, if_pos hS]
    exact ⟨(List.append_nil _).symm, rfl, rfl, rfl, rfl⟩
  · rw [if_neg hS, if_neg hS, mapBays_exchanges, mapBays_clb, mapBays_atu, mapBays_groups, mapBays_slc]
    exact ⟨rfl, rfl, rfl, rfl, rfl⟩

/-- Settles O37: the whole-request checks in order, then the per-bay checks, and the record and the steps
of an accepted SEND. -/
theorem sendCreatesTheExchange : Obligations.SendCreatesTheExchange := by
  intro tag p s r ha ht hp hm u used full badText
  have he := exec_send ha ht hp hm
  obtain ⟨c1, c2, c3, c4⟩ := sendRefusal_cases (s := s) (tag := tag) (text := r.text)
  refine ⟨fun h1 => ?_, fun h1 h2 => ?_, fun h1 h2 h3 => ?_, fun h1 h2 h3 ⟨w, hw, hs⟩ => ?_,
    fun spec S h1 h2 h3 hw hS => ?_, fun spec e h1 h2 h3 hw hS => ?_⟩
  · rw [he, c1 h1]
  · rw [he, c2 h1 h2]
  · rw [he, c3 h1 h2 h3]
  · have hspec : r.windowSpec = .error .badWindow := by
      simp only [SendRequest.windowSpec, hw, hs]
    rw [he, c4 h1 h2 h3, hspec]
  · intro judge v
    have hj : (fun b => if s.stale r.target.pins b then some .stale else (s.bay b).judgeSend)
        = judge := by
      funext b
      rw [judgeSend_eq]
    have hex : exec (.send tag p) s
        = .next ((State.startExchange r tag spec v.accepted (atTaking s)).answer 0x09 tag v.status
            (.verdicts v)) := by
      rw [he, c4 h1 h2 h3, hw]
      exact congrArg _ (multiBay_resolved hS hj)
    obtain ⟨f1, f2, f3, f4, f5⟩ :=
      startExchange_frame (s := atTaking s) r tag spec v.accepted
    refine ⟨_, hex, ?_, f1, fun b => ?_, f2, f3, f4⟩
    · rw [Answered, answer_answers, f5]
      rfl
    · rw [answer_bay, startExchange_bay]
      rfl
  · rw [he, c4 h1 h2 h3, hw]
    exact congrArg _ (multiBay_refused hS)

/-! ## DEFINE_GROUP (R91) -/

/-- The lowest undefined entry is the one that ANY takes. -/
theorem find_undefined {n : Fin 16} (h : (s.group n).defined = false)
    (hlow : ∀ k : Fin 16, k < n → (s.group k).defined = true) :
    (allGroups.find? fun n => !(s.group n).defined) = some n := by
  rw [allGroups, List.find?_eq_some_iff_getElem]
  refine ⟨by rw [h]; rfl, n.val, by simp, by simp, fun m hm => ?_⟩
  rw [List.getElem_finRange]
  simpa using hlow ⟨m, by omega⟩ hm

theorem find_undefined_none (h : ∀ n, (s.group n).defined = true) :
    (allGroups.find? fun n => !(s.group n).defined) = none :=
  List.find?_eq_none.mpr fun n _ => by simp [h n]

/-- A DEFINE_GROUP that Table 6.3 refuses for its number or its set. -/
def BadGroup (s : State) (r : DefineGroupRequest) : Prop :=
  (16 ≤ r.number ∧ r.number ≠ 255) ∨ r.bays = 0
    ∨ ∃ b : BayId, inSet r.bays b = true ∧ s.bayCount ≤ b.val

theorem groupFor_bad {r : DefineGroupRequest} (h : BadGroup s r) :
    s.groupFor r = .error .badTarget := by
  unfold State.groupFor
  by_cases hn : 16 ≤ r.number ∧ r.number ≠ 255
  · exact if_pos hn
  · exact (if_neg hn).trans (if_pos ((h.resolve_left hn).imp_right namesAbsent_iff.mpr))

/-- The checks of number and set passed, the entry is the named one or the lowest undefined. -/
theorem groupFor_good {r : DefineGroupRequest} (h : ¬ BadGroup s r) :
    s.groupFor r = (if h : r.number < 16 then .ok ⟨r.number, h⟩
      else match allGroups.find? fun n => !(s.group n).defined with
        | some n => .ok n
        | none => .error .tableFull) := by
  unfold State.groupFor
  have hn : ¬ (16 ≤ r.number ∧ r.number ≠ 255) := fun hn => h (.inl hn)
  have hs : ¬ (r.bays = 0 ∨ namesAbsent s.bayCount r.bays = true) :=
    fun hs => h (.inr (hs.imp_right namesAbsent_iff.mp))
  exact (if_neg hn).trans (if_neg hs)

theorem groupFor_entry {r : DefineGroupRequest} {n : Fin 16} (h : ¬ BadGroup s r)
    (hn : r.number = n.val ∨ (r.number = 255 ∧ (s.group n).defined = false
      ∧ ∀ k : Fin 16, k < n → (s.group k).defined = true)) : s.groupFor r = .ok n := by
  rw [groupFor_good h]
  rcases hn with hn | ⟨hany, hu, hlow⟩
  · exact (dif_pos (hn ▸ n.isLt)).trans (congrArg _ (Fin.ext hn))
  · rw [dif_neg (by omega), find_undefined hu hlow]

theorem groupFor_full {r : DefineGroupRequest} (h : ¬ BadGroup s r) (hany : r.number = 255)
    (hd : ∀ n, (s.group n).defined = true) : s.groupFor r = .error .tableFull := by
  rw [groupFor_good h, dif_neg (by omega), find_undefined_none hd]

theorem exec_defineGroup {r : DefineGroupRequest} (ha : Arrives s p) (ht : tag ≠ 0)
    (hp : readDefineGroup p = some r) : exec (.defineGroup tag p) s
      = .next (match s.groupFor r with
          | .error e => (atTaking s).answer 0x04 tag e .none
          | .ok n => ((atTaking s).defineEntry n r).answer 0x04 tag .ok
              (.group n (s.group n).defined)) := by
  change Host.Outcome.next (s.arrives 0x04 tag p (State.requestDefineGroup tag p)) = _
  rw [arrives_atTaking ha, State.requestDefineGroup, hp, checked_passed ht rfl]
  rfl

/-! ## DROP_GROUPS (R92) -/

theorem exec_dropGroups {r : DropGroupsRequest} (ha : Arrives s p) (hp : readDropGroups p = some r) :
    exec (.dropGroups tag p) s = .next ((atTaking s).checked 0x05 tag (some r)
      DropGroupsRequest.meaningful fun r =>
        match r.mode with
        | 0 =>
          if h : r.number < 16 then
            if (s.group ⟨r.number, h⟩).defined then
              (atTaking s).answerDrop tag fun n => decide (n.val = r.number)
            else (atTaking s).answer 0x05 tag .unknownGroup .none
          else (atTaking s).answer 0x05 tag .badTarget .none
        | 1 => (atTaking s).answerDrop tag fun n => !(s.group n).persistent
        | _ => (atTaking s).answerDrop tag fun _ => true) := by
  change Host.Outcome.next (s.arrives 0x05 tag p (State.requestDropGroups tag p)) = _
  rw [arrives_atTaking ha, State.requestDropGroups, hp]
  rfl

theorem droppedSet_bit (q : Fin 16 → Bool) (n : Fin 16) :
    (s.droppedSet q).getLsbD n.val = ((s.group n).defined && q n) := by
  have key (l : List (Fin 16)) (D : BitVec 16) :
      (l.foldl (fun S n => if (s.group n).defined && q n then S ||| BitVec.twoPow 16 n.val else S)
        D).getLsbD n.val
      = (D.getLsbD n.val || (decide (n ∈ l) && ((s.group n).defined && q n))) := by
    induction l generalizing D with
    | nil => simp
    | cons m l ih =>
      rw [List.foldl_cons, ih]
      by_cases hm : n = m
      · subst hm
        cases (s.group n).defined && q n <;> simp
      · have hv : m.val ≠ n.val := fun h => hm (Fin.ext h.symm)
        cases (s.group m).defined && q m <;> simp [hm, hv.symm]
  rw [State.droppedSet, key, allGroups]
  simp

theorem dropEntries_group (q : Fin 16 → Bool) (n : Fin 16) :
    (s.dropEntries q).group n = if (s.group n).defined && q n then .undefined else s.group n := by
  simp [State.group, State.dropEntries, Vector.get_eq_getElem]

/-- A drop of the entries that `q` picks answers with their set. -/
theorem answerDrop_spec (q : Fin 16 → Bool) : ∃ D : BitVec 16,
    (∀ n : Fin 16, D.getLsbD n.val = ((s.group n).defined && q n))
    ∧ (∀ n, (s.answerDrop tag q).group n
        = if (s.group n).defined && q n then Group.undefined else s.group n)
    ∧ s.answerDrop tag q
      = { s with groups := (s.answerDrop tag q).groups }.answer 0x05 tag .ok (.dropped D) := by
  have hg : (s.answerDrop tag q).groups = (s.dropEntries q).groups := rfl
  refine ⟨s.droppedSet q, fun n => droppedSet_bit q n, fun n => ?_, ?_⟩
  · rw [State.group, hg]
    exact dropEntries_group q n
  · rw [hg, State.answerDrop]
    generalize s.droppedSet q = D
    rfl

theorem dropGroups_meaningful {r : DropGroupsRequest} : r.meaningful = true ↔ r.mode ≤ 2 := by
  simp [DropGroupsRequest.meaningful]

/-- Settles O36: DEFINE_GROUP by the entry that the checks of Table 6.3 leave it, DROP_GROUPS by its mode. -/
theorem groupTableRequests : Obligations.GroupTableRequests := by
  intro tag s ht u
  refine ⟨fun p r ha hp => ?_, fun p r ha hp => ?_⟩
  · intro bad
    have he := exec_defineGroup ha ht hp
    refine ⟨fun hb => ?_, fun hb n hn => ?_, fun hb hany hd => ?_⟩
    · rw [he, groupFor_bad hb]
    · intro g
      rw [he, groupFor_entry hb hn]
      rfl
    · rw [he, groupFor_full hb hany hd]
  · intro drops
    have he := exec_dropGroups (tag := tag) ha hp
    refine ⟨fun hm => ?_, fun hm hn => ?_, fun n hm hn hu => ?_, fun hm hn => ?_⟩
    · rw [he, State.checked, if_neg ht, if_neg fun h => by
        have := dropGroups_meaningful.mp h
        omega]
    · rw [he, checked_passed ht (dropGroups_meaningful.mpr (by omega)), hm]
      simp only [dif_neg (Nat.not_lt.mpr hn)]
      rfl
    · rw [he, checked_passed ht (dropGroups_meaningful.mpr (by omega)), hm]
      simp only [hn, n.isLt, dif_pos, Fin.eta, hu]
      rfl
    · rw [checked_passed ht (dropGroups_meaningful.mpr hm)] at he
      obtain ⟨q, hq, hd⟩ : ∃ q : Fin 16 → Bool,
          exec (.dropGroups tag p) s = .next (u.answerDrop tag q)
          ∧ ∀ n, drops n = ((s.group n).defined && q n) := by
        by_cases h0 : r.mode = 0
        · obtain ⟨n, hn, hdef⟩ := hn h0
          refine ⟨fun n => decide (n.val = r.number), ?_, fun n => ?_⟩
          · rw [he, h0]
            simp only [hn, n.isLt, dif_pos, Fin.eta, hdef]
            rfl
          · simp only [drops, if_pos h0]
        · by_cases h1 : r.mode = 1
          · refine ⟨fun n => !(s.group n).persistent, ?_, fun n => ?_⟩
            · rw [h1] at he
              exact he
            · simp only [drops, if_neg h0, if_pos h1]
          · have h2 : r.mode = 2 := by omega
            refine ⟨fun _ => true, ?_, fun n => ?_⟩
            · rw [h2] at he
              exact he
            · simp only [drops, if_neg h0, if_neg h1]
      obtain ⟨D, d1, d2, d3⟩ := answerDrop_spec (s := u) (tag := tag) q
      refine ⟨_, D, hq, fun n => (d1 n).trans (hd n).symm, fun n => ?_, d3⟩
      rw [d2, hd]
      rfl

end Sys2Proof.Machine
end

section
/-! PROOF. CONFIGURE_BAY at its taking (section 6.4). -/

namespace Sys2Proof.Machine

open Sys2Proof.Claims

variable {s t : State} {b : BayId} {y : Bay} {tag : Tag} {p : List Byte} {S : BaySet} {a : Settings}

/-! ## Monitor windows completed before a restart (R60) -/

/-- A bay whose monitor window an earlier boundary made due has it completed. -/
def Bay.monitorSettled (y : Bay) : Bay :=
  if y.mu.monitorAcc.due = true then { y with mu := y.mu.monitorCompleted y.params } else y

/-- A bay as an applied set finds it: a due monitor window completed where the set restarts the monitor. -/
def Bay.settledFor (y : Bay) (a : Settings) : Bay :=
  if a.touchesMonitor then y.monitorSettled else y

theorem completeMonitor_settled (b b' : BayId) (s : State) :
    (s.completeMonitor b).bay b' = if b' = b then (s.bay b').monitorSettled else s.bay b' := by
  rw [completeMonitor_bay]
  by_cases hb : b' = b
  · subst hb
    simp only [true_and, Bay.monitorSettled, if_true]
  · rw [if_neg fun h => hb h.1, if_neg hb]

/-- The completions of a pass change bays and BAND flags of bays with a due window alone. -/
theorem monitor_pass (l : List BayId) :
    let t := l.foldl (fun s b => if inSet S b then s.completeMonitor b else s) s
    SameElsewhere s t ∧ t.slc.answers = s.slc.answers
    ∧ ∀ b c, c ≠ AttClass.band ∨ ¬ (inSet S b = true ∧ (s.bay b).mu.monitorAcc.due = true) →
        t.flag b c = s.flag b c := by
  induction l generalizing s with
  | nil => exact ⟨⟨rfl, rfl, rfl, rfl, rfl, rfl, rfl, rfl⟩, rfl, fun _ _ _ => rfl⟩
  | cons d l ih =>
    simp only [List.foldl_cons]
    by_cases hd : inSet S d = true
    · rw [if_pos hd]
      obtain ⟨f1, f2, f3, f4, f5, f6, f7⟩ := completeMonitor_frame (s := s) (b := d)
      obtain ⟨⟨i1, i2, i3, i4, i5, i6, i7, i8⟩, i9, i10⟩ := ih (s := s.completeMonitor d)
      refine ⟨⟨i1.trans f1, i2.trans f2, i3.trans f3, i4.trans f4, i5.trans f5, i6.trans ?_,
        i7.trans ?_, i8.trans f7⟩, i9.trans ?_, fun b c h => ?_⟩
      · rw [f6]
      · rw [f6]
      · rw [f6]
      by_cases hb : (b, c) = (d, AttClass.band)
      · obtain ⟨rfl, rfl⟩ := Prod.mk.injEq .. ▸ hb
        have hdue : (s.bay b).mu.monitorAcc.due = false := by
          rcases h with h | h
          · exact absurd rfl h
          · exact Bool.eq_false_iff.mpr fun hn => h ⟨hd, hn⟩
        have hs := completeMonitor_eq_of_not_due hdue
        rw [hs] at i10 ⊢
        exact i10 b _ h
      · refine (i10 b c ?_).trans (completeMonitor_flag hb)
        refine h.imp id fun hn ⟨hS, hdue⟩ => hn ⟨hS, ?_⟩
        by_cases hbd : b = d
        · subst hbd
          rw [completeMonitor_settled, if_pos rfl, Bay.monitorSettled] at hdue
          split at hdue
          · assumption
          · exact hdue
        · rwa [completeMonitor_settled, if_neg hbd] at hdue
    · rw [if_neg hd]
      exact ih

theorem monitor_pass_bay (b : BayId) : (s.forBays S fun b s => s.completeMonitor b).bay b
    = if inSet S b then (s.bay b).monitorSettled else s.bay b := by
  obtain ⟨h1, h2⟩ := forBays_bay (S := S) (s := s) (f := fun b s => s.completeMonitor b)
    (R := fun y z => z = y.monitorSettled)
    (fun b b' s h => by rw [completeMonitor_settled, if_neg h])
    (fun b s => by rw [completeMonitor_settled, if_pos rfl]) b
  split
  · next h => exact h2 h
  · next h => exact h1 (Bool.eq_false_iff.mpr h)

/-- An applied set at the accepted bays: each becomes what its configuration makes of it, and only BAND
flags of bays with a due window can change. -/
theorem configureBays_spec (a : Settings) (S : BaySet) (s : State) :
    (∀ b, (s.configureBays a S).bay b
      = if inSet S b then ((s.bay b).settledFor a).configure a else s.bay b)
    ∧ SameElsewhere s (s.configureBays a S)
    ∧ (s.configureBays a S).slc.answers = s.slc.answers
    ∧ ∀ b c, c ≠ AttClass.band ∨ ¬ (inSet S b = true ∧ a.touchesMonitor = true
        ∧ (s.bay b).mu.monitorAcc.due = true) → (s.configureBays a S).flag b c = s.flag b c := by
  obtain ⟨w, hw, hbay, ⟨e1, e2, e3, e4, e5, e6, e7, e8⟩, hans, hfl⟩ : ∃ w : State,
      s.configureBays a S = w.mapBays (fun b y => if inSet S b then y.configure a else y)
      ∧ (∀ b, w.bay b = if inSet S b then (s.bay b).settledFor a else s.bay b)
      ∧ SameElsewhere s w ∧ w.slc.answers = s.slc.answers
      ∧ ∀ b c, c ≠ AttClass.band ∨ ¬ (inSet S b = true ∧ a.touchesMonitor = true
        ∧ (s.bay b).mu.monitorAcc.due = true) → w.flag b c = s.flag b c := by
    by_cases ht : a.touchesMonitor = true
    · obtain ⟨p1, p2, p3⟩ := monitor_pass (s := s) (S := S) allBays
      refine ⟨s.forBays S fun b s => s.completeMonitor b, ?_, fun b => ?_, p1, p2,
        fun b c h => p3 b c (h.imp id fun hn hp => hn ⟨hp.1, ht, hp.2⟩)⟩
      · simp only [State.configureBays, ht, if_true]
      · rw [monitor_pass_bay, Bay.settledFor, if_pos ht]
    · refine ⟨s, ?_, fun b => ?_, ⟨rfl, rfl, rfl, rfl, rfl, rfl, rfl, rfl⟩, rfl, fun _ _ _ => rfl⟩
      · simp only [State.configureBays, if_neg ht]
      · rw [Bay.settledFor, if_neg ht, ite_self]
  rw [hw]
  refine ⟨fun b => ?_, ⟨by simpa using e1, by simpa using e2, by simpa using e3, by simpa using e4,
    by simpa using e5, by simpa using e6, by simpa using e7, by simpa using e8⟩,
    by simpa using hans, fun b c h => ?_⟩
  · rw [mapBays_bay, hbay]
    split <;> rfl
  · rw [mapBays_flag]
    exact hfl b c h

/-! ## One accepted bay (R60, R64, R69, R95, R97) -/

/-- What a due window's completion before a restart leaves of a bay. -/
theorem settledFor_eq (y : Bay) (a : Settings) : ∃ o l c,
    y.settledFor a = { y with mu := { y.mu with
        outOfBand := o, lastSummary := l, monitorAcc := c } }
    ∧ (a.touchesMonitor = false →
        o = y.mu.outOfBand ∧ l = y.mu.lastSummary ∧ c = y.mu.monitorAcc)
    ∧ (y.mu.monitorAcc.due = false → l = y.mu.lastSummary) := by
  unfold Bay.settledFor Bay.monitorSettled
  by_cases ht : a.touchesMonitor = true
  · rw [if_pos ht]
    by_cases hd : y.mu.monitorAcc.due = true
    · rw [if_pos hd]
      exact ⟨_, _, _, rfl, fun h => by simp [ht] at h, fun h => by simp [hd] at h⟩
    · rw [if_neg hd]
      exact ⟨y.mu.outOfBand, _, y.mu.monitorAcc, rfl, fun _ => ⟨rfl, rfl, rfl⟩, fun _ => rfl⟩
  · rw [if_neg ht]
    exact ⟨y.mu.outOfBand, _, y.mu.monitorAcc, rfl, fun _ => ⟨rfl, rfl, rfl⟩, fun _ => rfl⟩

theorem slews_iff : y.slews a = true
    ↔ y.power.outputOn = true ∧ (y.params.store a).supplyMv ≠ y.params.supplyMv := by
  rw [Bay.slews, Bool.and_eq_true, decide_eq_true_iff]

/-- The settle trigger starts the interval afresh at a sampling unit, or ends it with 0 ms (R64). -/
theorem settleTrigger_spec (m : Mu) (ms : Nat) :
    (m.sampling = .sampling → ms ≠ 0 →
      (m.settleTrigger ms).settleTimer = started ms ∧ (m.settleTrigger ms).periodSettle = true)
    ∧ (m.sampling = .sampling → ms = 0 →
      (m.settleTrigger ms).settleTimer = none ∧ (m.settleTrigger ms).periodSettle = m.periodSettle)
    ∧ (m.sampling ≠ .sampling → m.settleTrigger ms = m) := by
  unfold Mu.settleTrigger
  refine ⟨fun h h0 => ?_, fun h h0 => ?_, fun h => ?_⟩
  · simp only [h, if_neg h0]
    exact ⟨rfl, trivial⟩
  · simp only [h, if_pos h0, and_self]
  · cases hs : m.sampling
    · rfl
    · exact absurd hs h
    · rfl

/-- The unit's part of an applied set: settle interval, pending mode and monitor. -/
structure ConfiguredUnit (y : Bay) (a : Settings) (m : Mu) : Prop where
  frame : m = { y.mu with
    pendingRange := m.pendingRange, settleTimer := m.settleTimer, periodSettle := m.periodSettle
    monitorState := m.monitorState, outOfBand := m.outOfBand, monitorAcc := m.monitorAcc }
  pending : m.pendingRange = y.configuredPending a
  triggered : y.slews a = true → (y.params.store a).settleOnChanges = true →
    y.mu.sampling = .sampling →
    ((y.params.store a).settleMs ≠ 0 →
      m.settleTimer = started (y.params.store a).settleMs ∧ m.periodSettle = true)
    ∧ ((y.params.store a).settleMs = 0 → m.settleTimer = none ∧ m.periodSettle = y.mu.periodSettle)
  untriggered : ¬ (y.slews a = true ∧ (y.params.store a).settleOnChanges = true
      ∧ y.mu.sampling = .sampling) →
    m.settleTimer = y.mu.settleTimer ∧ m.periodSettle = y.mu.periodSettle
  restarted : a.touchesMonitor = true → m.outOfBand = 0
    ∧ ((y.params.store a).monitorOn = true ∧ y.mu.sampling = .sampling →
      m.monitorState = .watching ∧ m.monitorAcc = { Accumulator.cleared with
        state := .starting, length := (y.params.store a).monitorWindow })
    ∧ (¬ ((y.params.store a).monitorOn = true ∧ y.mu.sampling = .sampling) →
      m.monitorState = .stopped ∧ m.monitorAcc.state = .free)
  kept : a.touchesMonitor = false → m.outOfBand = y.mu.outOfBand
    ∧ m.monitorState = y.mu.monitorState ∧ m.monitorAcc = y.mu.monitorAcc

/-- A restart leaves everything but the monitor's state, count and window (R60). -/
theorem restartMonitor_spec (m : Mu) (q : Params) :
    m.restartMonitor q = { m with
      monitorState := (m.restartMonitor q).monitorState, outOfBand := 0
      monitorAcc := (m.restartMonitor q).monitorAcc }
    ∧ (q.monitorOn = true ∧ m.sampling = .sampling → (m.restartMonitor q).monitorState = .watching
      ∧ (m.restartMonitor q).monitorAcc = { Accumulator.cleared with
          state := .starting, length := q.monitorWindow })
    ∧ (¬ (q.monitorOn = true ∧ m.sampling = .sampling) →
      (m.restartMonitor q).monitorState = .stopped ∧ (m.restartMonitor q).monitorAcc.state = .free) := by
  have hc : (q.monitorOn && decide (m.sampling = .sampling)) = true
      ↔ q.monitorOn = true ∧ m.sampling = .sampling := by
    rw [Bool.and_eq_true, decide_eq_true_iff]
  unfold Mu.restartMonitor
  by_cases h : q.monitorOn = true ∧ m.sampling = .sampling
  · rw [if_pos (hc.mpr h)]
    exact ⟨rfl, fun _ => ⟨rfl, rfl⟩, fun hn => absurd h hn⟩
  · rw [if_neg fun hn => h (hc.mp hn)]
    exact ⟨rfl, fun hn => absurd hn h, fun _ => ⟨rfl, rfl⟩⟩

/-- The unit before a restart of its monitor: the settle trigger of a slewed output that asks for one. -/
theorem configuredUnit_settle (y : Bay) (a : Settings) :
    ∃ st ps, y.configuredUnit a
        = { y.mu with settleTimer := st, periodSettle := ps, pendingRange := y.configuredPending a }
      ∧ (y.slews a = true → (y.params.store a).settleOnChanges = true → y.mu.sampling = .sampling →
          ((y.params.store a).settleMs ≠ 0 → st = started (y.params.store a).settleMs ∧ ps = true)
          ∧ ((y.params.store a).settleMs = 0 → st = none ∧ ps = y.mu.periodSettle))
      ∧ (¬ (y.slews a = true ∧ (y.params.store a).settleOnChanges = true
          ∧ y.mu.sampling = .sampling) → st = y.mu.settleTimer ∧ ps = y.mu.periodSettle) := by
  unfold Bay.configuredUnit
  by_cases hq : (y.slews a && (y.params.store a).settleOnChanges) = true
  · obtain ⟨t1, t2, t3⟩ := settleTrigger_spec y.mu (y.params.store a).settleMs
    rw [if_pos hq, settleTrigger_eq]
    refine ⟨_, _, rfl, fun _ _ hs => ⟨t1 hs, t2 hs⟩, fun h => ?_⟩
    rw [Bool.and_eq_true] at hq
    rw [t3 fun hs => h ⟨hq.1, hq.2, hs⟩]
    exact ⟨rfl, rfl⟩
  · rw [if_neg hq]
    refine ⟨_, _, rfl, fun h1 h2 _ => absurd ?_ hq, fun _ => ⟨rfl, rfl⟩⟩
    rw [h1, h2]
    rfl

theorem configuredUnit_spec (y : Bay) (a : Settings) :
    ConfiguredUnit y a (if a.touchesMonitor then
      (y.configuredUnit a).restartMonitor (y.params.store a) else y.configuredUnit a) := by
  obtain ⟨st, ps, hu, hset, hkeep⟩ := configuredUnit_settle y a
  rw [hu]
  cases ht : a.touchesMonitor with
  | true =>
    obtain ⟨r1, r2, r3⟩ := restartMonitor_spec { y.mu with
      settleTimer := st, periodSettle := ps, pendingRange := y.configuredPending a }
      (y.params.store a)
    rw [if_pos rfl, r1]
    exact ⟨rfl, rfl, hset, hkeep, fun _ => ⟨rfl, r2, r3⟩, fun h => absurd (ht.symm.trans h) (by simp)⟩
  | false =>
    rw [if_neg Bool.false_ne_true]
    exact ⟨rfl, rfl, hset, hkeep, fun h => absurd (ht.symm.trans h) (by simp),
      fun _ => ⟨rfl, rfl, rfl⟩⟩

/-- The line after an applied set, direction by direction (R69). -/
theorem configuredLine_eq (y : Bay) (a : Settings) : y.configuredLine a = match a.linkRate with
    | none => y.line
    | some rate => { y.line with
        txRate := if y.line.sending = none then rateOf rate else y.line.txRate
        txPending := if y.line.sending = none then none else some (rateOf rate)
        rxRate := if y.line.assembly = none then rateOf rate else y.line.rxRate
        rxPending := if y.line.assembly = none then none else some (rateOf rate) } := by
  unfold Bay.configuredLine Line.setRate
  cases a.linkRate with
  | none => rfl
  | some rate => cases h1 : y.line.sending <;> cases h2 : y.line.assembly <;> simp [h1, h2]

/-- range_mode: stored at a unit that does not sample, pending at one that does (R31). -/
theorem configuredMode_spec (y : Bay) (a : Settings) :
    (∀ mode, a.rangeMode = some mode → y.mu.sampling = .sampling →
      y.configuredPending a = some (modeOf mode) ∧ y.configuredMode a = y.params.rangeMode)
    ∧ (∀ mode, a.rangeMode = some mode → y.mu.sampling ≠ .sampling →
      y.configuredMode a = modeOf mode)
    ∧ (a.rangeMode = none →
      y.configuredPending a = y.mu.pendingRange ∧ y.configuredMode a = y.params.rangeMode) := by
  unfold Bay.configuredPending Bay.configuredMode
  refine ⟨fun mode h hs => ?_, fun mode h hs => ?_, fun h => ?_⟩ <;> rw [h]
  · rw [hs]
    exact ⟨rfl, rfl⟩
  · cases hm : y.mu.sampling
    · rfl
    · exact absurd hm hs
    · rfl
  · exact ⟨rfl, rfl⟩

/-! ## The request -/

theorem exec_configureBay {r : ConfigureBayRequest} (ha : Arrives s p) (ht : tag ≠ 0)
    (hp : readConfigureBay p = some r) (hm : r.meaningful = true) (hS : s.resolve r.target = .ok S) :
    exec (.configureBay tag p) s = .next (
      let v := verdictsOf S fun b => if s.stale r.target.pins b then some .stale else none
      ((atTaking s).configureBays r.values.applied v.accepted).answer 0x03 tag v.status
        (s.configureContent r.values.applied v)) := by
  have hr : (atTaking s).resolve r.target = .ok S := hS
  change Host.Outcome.next (s.arrives 0x03 tag p (State.requestConfigureBay tag p)) = _
  rw [arrives_atTaking ha, State.requestConfigureBay, hp, checked_passed ht hm]
  simp only [hr]
  rfl

/-- Settles O34: the pass of completions that a restart of the monitor needs first, and the exact bay that
an applied set makes; that every step keeps the parameters legal is the last part. -/
theorem configureBayStoresTheAppliedSet : Obligations.ConfigureBayStoresTheAppliedSet := by
  refine ⟨fun tag p s r S ha ht hp hm hS => ?_, fun s t hs h => step_paramsLegal hs h⟩
  intro a v
  obtain ⟨hbay, ⟨e1, e2, e3, e4, e5, e6, e7, e8⟩, hans, hfl⟩ :=
    configureBays_spec a v.accepted (atTaking s)
  have he : exec (.configureBay tag p) s = .next (((atTaking s).configureBays a v.accepted).answer
      0x03 tag v.status (s.configureContent a v)) := exec_configureBay ha ht hp hm hS
  generalize (atTaking s).configureBays a v.accepted = w at *
  refine ⟨_, he, ?_, ⟨e1, e2, e3, e4, e5, e6, e7, e8⟩, fun b c hc => hfl b c (.inl hc),
    fun b h => hfl b .band (.inr h), fun b => ?_⟩
  · rw [Answered, answer_answers]
    exact congrArg (· ++ _) hans
  · have hb := hbay b
    have hans : (w.answer 0x03 tag v.status (s.configureContent a v)).bay b = w.bay b := rfl
    refine ⟨fun hin => ?_, fun hout => ?_⟩
    · intro y now slews triggers
      rw [if_pos hin] at hb
      rw [hans, hb]
      clear hb hans hbay e1 e2 e3 e4 e5 e6 e7 e8 hfl he
      obtain ⟨o, l, c, hw, hsame, hl⟩ := settledFor_eq y a
      obtain ⟨hmode, hstored, hnone⟩ := configuredMode_spec y a
      have hline := configuredLine_eq y a
      have hslews : y.slews a = true ↔ slews := slews_iff
      have hunit := configuredUnit_spec { y with mu := { y.mu with
        outOfBand := o, lastSummary := l, monitorAcc := c } } a
      have hz : ((atTaking s).bay b).settledFor a = y.settledFor a := rfl
      rw [hz, hw, configure_eq]
      generalize (ite (a.touchesMonitor = true) _ _) = m at hunit ⊢
      obtain ⟨hframe, hpend, htrig, huntrig, hrestart, hkept⟩ := hunit
      refine ⟨rfl, rfl, rfl, rfl, fun h => if_pos (hslews.mpr h), fun h => if_neg fun hn => h (hslews.mp hn),
        fun ⟨h1, h2, h3⟩ => (htrig (hslews.mpr h1) h2 h3).1,
        fun ⟨h1, h2, h3⟩ => (htrig (hslews.mpr h1) h2 h3).2,
        fun h => huntrig fun ⟨h1, h2, h3⟩ => h ⟨hslews.mp h1, h2, h3⟩,
        fun h => ?_, fun h => ?_, ?_, fun mode h hs => ?_, fun mode h hs => ?_, fun h => ?_,
        fun rate h h1 h2 => ?_, ?_, rfl, rfl, rfl, rfl, rfl, rfl, rfl, rfl, rfl, rfl, ?_⟩
      · obtain ⟨r1, r2, r3⟩ := hrestart h
        refine ⟨r1, r2, r3, fun hd => ?_⟩
        rw [hframe]
        exact hl hd
      · obtain ⟨k1, k2, k3⟩ := hkept h
        obtain ⟨g1, g2, g3⟩ := hsame h
        refine ⟨k1.trans g1, k2, k3.trans g3, ?_⟩
        rw [hframe]
        exact g2
      · rw [hframe]
      · obtain ⟨m1, m2⟩ := hmode mode h hs
        exact ⟨hpend.trans m1, m2⟩
      · exact hstored mode h hs
      · obtain ⟨m1, m2⟩ := hnone h
        exact ⟨hpend.trans m1, m2⟩
      · change (y.configuredLine a).txRate = _ ∧ (y.configuredLine a).rxRate = _
        rw [hline, h]
        exact ⟨if_pos h1, if_pos h2⟩
      · exact hline
      · have hlast : m.lastSummary = l := by rw [hframe]
        have hm : m = { y.mu with
            pendingRange := m.pendingRange, settleTimer := m.settleTimer
            periodSettle := m.periodSettle, monitorState := m.monitorState
            outOfBand := m.outOfBand, lastSummary := m.lastSummary
            monitorAcc := m.monitorAcc } := by
          rw [hlast]
          exact hframe
        congr 1
    · rw [hans]
      exact hb.trans (if_neg (by simp [hout]))

end Sys2Proof.Machine
end

section
/-! PROOF. Acknowledgement, attention notices, answers and log lines, and CONFIGURE_STATION. -/

namespace Sys2Proof.Machine

open Sys2Proof.Claims

variable {s t : State} {b : BayId} {c : AttClass} {tag : Tag} {p : List Byte} {S : BaySet}
  {classes : BitVec 16} {x y : BayId × AttClass}

/-! ## Acknowledgement (R153, R154, Table 9.4) -/

/-- A raised flag whose condition does not stand: an acknowledgement clears it. -/
def State.clearable (s : State) (x : BayId × AttClass) : Bool :=
  (s.flag x.1 x.2).isRaised && !s.standing x.1 x.2

/-- What acknowledging the flags that `N` names makes of a state. -/
structure Acked (N : BayId × AttClass → Bool) (s t : State) : Prop where
  flag : ∀ x : BayId × AttClass, t.flag x.1 x.2
    = if N x && s.clearable x then Flag.cleared else s.flag x.1 x.2
  queue : t.atu.queue = s.atu.queue.filter fun x => !(N x && s.clearable x)
  rest : SameBesidesAtu s t
  ring : t.atu.ring = s.atu.ring
  levels : t.atu.levels = s.atu.levels

theorem acked_none : Acked (fun _ => false) s s :=
  ⟨fun _ => by simp, by simp, .refl s, rfl, rfl⟩

theorem ackFlag_eq : s.ackFlag b c = if s.clearable (b, c) then s.clearFlag b c else s := rfl

theorem standing_of_bay (h : ∀ b, t.bay b = s.bay b) : t.standing b c = s.standing b c := by
  cases c <;> simp only [State.standing, h]

theorem acked_one (b : BayId) (c : AttClass) : Acked (fun x => decide (x = (b, c))) s (s.ackFlag b c) := by
  rw [ackFlag_eq]
  by_cases hc : s.clearable (b, c) = true
  · rw [if_pos hc]
    refine ⟨fun x => ?_, ?_, clearFlag_frame, rfl, rfl⟩
    · rw [clearFlag_flag]
      by_cases hx : x = (b, c)
      · subst hx
        simp [hc]
      · rw [if_neg hx]
        simp [hx]
    · rw [clearFlag_queue]
      refine List.filter_congr fun x _ => ?_
      by_cases hx : x = (b, c)
      · subst hx
        simp [hc]
      · simp [hx]
  · rw [if_neg hc]
    have hno (x : BayId × AttClass) : (decide (x = (b, c)) && s.clearable x) = false := by
      by_cases hx : x = (b, c)
      · subst hx
        simpa using hc
      · simp [hx]
    refine ⟨fun x => by rw [hno x]; rfl, ?_, .refl s, rfl, rfl⟩
    rw [List.filter_eq_self.mpr fun x _ => by rw [hno x]; rfl]

/-- Acknowledging some flags and then others is acknowledging them all: a flag once cleared stays so. -/
theorem Acked.trans {N M : BayId × AttClass → Bool} {u : State} (h : Acked N s t) (h' : Acked M t u) :
    Acked (fun x => N x || M x) s u := by
  have hclear (x : BayId × AttClass) :
      t.clearable x = (s.clearable x && !N x) := by
    have hst : t.standing x.1 x.2 = s.standing x.1 x.2 := standing_of_bay h.rest.bay
    unfold State.clearable
    rw [hst, h.flag]
    unfold State.clearable
    by_cases hc : (N x && ((s.flag x.1 x.2).isRaised && !s.standing x.1 x.2)) = true
    · have hcl : Flag.cleared.isRaised = false := rfl
      rw [if_pos hc, hcl]
      rw [Bool.and_eq_true] at hc
      simp [hc.1]
    · rw [if_neg hc]
      revert hc
      cases N x <;> cases (s.flag x.1 x.2).isRaised && !s.standing x.1 x.2 <;> simp
  refine ⟨fun x => ?_, ?_, h.rest.trans h'.rest, h'.ring.trans h.ring, h'.levels.trans h.levels⟩
  · rw [h'.flag, h.flag, hclear]
    cases N x <;> cases M x <;> cases s.clearable x <;> simp
  · rw [h'.queue, h.queue, List.filter_filter]
    refine List.filter_congr fun x _ => ?_
    rw [hclear]
    cases N x <;> cases M x <;> cases s.clearable x <;> rfl

theorem Acked.congr {N M : BayId × AttClass → Bool} (h : Acked N s t) (hn : ∀ x, N x = M x) :
    Acked M s t := by
  rwa [← funext hn]

/-- The named classes of one bay, one after another. -/
theorem acked_classes (l : List AttClass) :
    Acked (fun x => decide (x.1 = b) && decide (x.2 ∈ l) && namesClass classes x.2) s
      (l.foldl (fun s c => if namesClass classes c then s.ackFlag b c else s) s) := by
  induction l generalizing s with
  | nil => exact acked_none.congr fun x => by simp
  | cons c l ih =>
    rw [List.foldl_cons]
    by_cases hc : namesClass classes c = true
    · rw [if_pos hc]
      refine ((acked_one b c).trans ih).congr fun x => ?_
      obtain ⟨d, e⟩ := x
      by_cases hd : d = b <;> by_cases he : e = c <;> simp [hd, he, hc]
    · rw [if_neg hc]
      refine ih.congr fun x => ?_
      obtain ⟨d, e⟩ := x
      by_cases he : e = c <;> simp [he, hc]

/-- The named classes of every bay of a list. -/
theorem acked_bays (l : List BayId) :
    Acked (fun x => decide (x.1 ∈ l) && inSet S x.1 && namesClass classes x.2) s
      (l.foldl (fun s b => if inSet S b then s.ackBay classes b else s) s) := by
  induction l generalizing s with
  | nil => exact acked_none.congr fun x => by simp
  | cons b l ih =>
    rw [List.foldl_cons]
    by_cases hb : inSet S b = true
    · rw [if_pos hb]
      refine ((acked_classes allClasses).trans ih).congr fun x => ?_
      obtain ⟨d, e⟩ := x
      by_cases hd : d = b <;> simp [hd, hb, mem_allClasses]
    · rw [if_neg hb]
      refine ih.congr fun x => ?_
      obtain ⟨d, e⟩ := x
      by_cases hd : d = b <;> simp [hd, hb]

/-- The pass of ACK_ATTENTION over the accepted bays. -/
theorem acked_pass : Acked (fun x => inSet S x.1 && namesClass classes x.2) s
    (s.forBays S fun b s => s.ackBay classes b) :=
  (acked_bays allBays).congr fun x => by simp [mem_allBays]

theorem isRaised_iff {f : Flag} : f.isRaised = true ↔ f.state ≠ .clear := by
  simp [Flag.isRaised]

theorem standing_iff : s.standing b c = true ↔ (c = .trip ∧ (s.bay b).power = .tripped)
    ∨ (c = .band ∧ (s.bay b).mu.outOfBand = (s.bay b).params.monitorCount) := by
  cases c <;> simp [State.standing]

theorem clearable_iff : s.clearable (b, c) = true
    ↔ (s.flag b c).state ≠ .clear ∧ ¬ s.standing b c = true := by
  rw [State.clearable, Bool.and_eq_true, isRaised_iff, Bool.not_eq_true', Bool.not_eq_true]

theorem mem_heldList : (b, c) ∈ s.heldList S classes
    ↔ (inSet S b = true ∧ namesClass classes c = true) ∧ (s.flag b c).state ≠ .clear
      ∧ s.standing b c = true := by
  simp only [State.heldList, List.mem_filter, mem_allFlags, true_and, State.heldFlag, Bool.and_eq_true,
    isRaised_iff]

/-- The flags stand in ascending bay order and then class order. -/
theorem allFlags_ascending :
    (allFlags.map fun x => 9 * x.1.val + x.2.code.val).Pairwise (· < ·) := by
  rw [List.pairwise_map, allFlags, List.pairwise_flatMap]
  refine ⟨fun b _ => ?_, (List.sortedLT_finRange 24).pairwise.imp fun {b b'} hlt => ?_⟩
  · have hclasses : allClasses.Pairwise fun c c' => c.code < c'.code := by decide
    rw [List.pairwise_map]
    exact hclasses.imp fun h => Nat.add_lt_add_left h _
  · intro x hx y hy
    obtain ⟨c, -, rfl⟩ := List.mem_map.mp hx
    obtain ⟨c', -, rfl⟩ := List.mem_map.mp hy
    have hlt : b.val < b'.val := hlt
    have hc := c.code.isLt
    change 9 * b.val + c.code.val < 9 * b'.val + c'.code.val
    omega

theorem exec_ackAttention {r : AckRequest} (ha : Arrives s p) (ht : tag ≠ 0) (hp : readAck p = some r)
    (hm : r.meaningful = true) (hS : s.resolve r.target = .ok S) : exec (.ackAttention tag p) s
      = .next (
        let v := verdictsOf S fun b => if s.stale r.target.pins b then some .stale else none
        ((atTaking s).forBays v.accepted fun b s => s.ackBay r.classes b).answer 0x0D tag v.status
          (.acknowledged v (s.heldList v.accepted r.classes))) := by
  have hr : (atTaking s).resolve r.target = .ok S := hS
  change Host.Outcome.next (s.arrives 0x0D tag p (State.requestAckAttention tag p)) = _
  rw [arrives_atTaking ha, State.requestAckAttention, hp, checked_passed ht hm]
  simp only [hr]
  rfl

/-- Settles O51: the pass clears exactly the named flags that are raised and whose condition does not
stand, and takes exactly these out of the queue. -/
theorem ackClearsAllButHeldFlags : Obligations.AckClearsAllButHeldFlags := by
  intro tag p s r S ha ht hp hm hS v named stands
  have he : exec (.ackAttention tag p) s = .next
      (((atTaking s).forBays v.accepted fun b s => s.ackBay r.classes b).answer 0x0D tag v.status
        (.acknowledged v (s.heldList v.accepted r.classes))) := exec_ackAttention ha ht hp hm hS
  have hack := acked_pass (s := atTaking s) (S := v.accepted) (classes := r.classes)
  generalize (atTaking s).forBays v.accepted (fun b s => s.ackBay r.classes b) = w at he hack
  obtain ⟨hflag, hqueue, hrest, hring, hlevels⟩ := hack
  have hst (b c) : stands b c ↔ s.standing b c = true := standing_iff.symm
  have hacks (b c) : ((inSet v.accepted b && namesClass r.classes c) && (atTaking s).clearable (b, c)) = true
      ↔ named b c ∧ (s.flag b c).state ≠ .clear ∧ ¬ stands b c := by
    rw [Bool.and_eq_true, Bool.and_eq_true, hst]
    exact and_congr Iff.rfl clearable_iff
  have hmem (b c) : (b, c) ∈ w.atu.queue
      ↔ (b, c) ∈ s.atu.queue ∧ ¬ (named b c ∧ (s.flag b c).state ≠ .clear ∧ ¬ stands b c) := by
    rw [hqueue, List.mem_filter, ← hacks, Bool.not_eq_true', Bool.not_eq_true]
    exact Iff.rfl
  refine ⟨_, s.heldList v.accepted r.classes, he, ?_, fun b c => ?_, ?_, fun b c => ?_, fun b c hn hr hs => ?_,
    fun b c h => ?_, ?_, hrest.bays, hring, hlevels, hrest.exchanges, hrest.clb, hrest.groups⟩
  · rw [Answered, answer_answers, hrest.slc]
    rfl
  · rw [hst]
    exact mem_heldList
  · exact allFlags_ascending.sublist (List.filter_sublist.map _)
  · have hf := hflag (b, c)
    split at hf
    · exact .inr hf
    · exact .inl hf
  · exact ⟨(hflag (b, c)).trans (if_pos ((hacks b c).mpr ⟨hn, hr, hs⟩)),
      fun hq => ((hmem b c).mp hq).2 ⟨hn, hr, hs⟩⟩
  · have hno : ¬ (named b c ∧ (s.flag b c).state ≠ .clear ∧ ¬ stands b c) := by
      rintro ⟨h1, h2, h3⟩
      rcases h with h | h | h
      · exact h h1
      · exact h3 h
      · exact h2 h
    exact ⟨(hflag (b, c)).trans (if_neg fun hn => hno ((hacks b c).mp hn)),
      (hmem b c).trans ⟨fun h => h.1, fun h => ⟨h, hno⟩⟩⟩
  · change w.atu.queue.Sublist s.atu.queue
    rw [hqueue]
    exact List.filter_sublist

/-! ## The arbiter's choice (R171) -/

theorem chooses_answer_iff :
    s.chooses .answer = true ↔ s.slc.transmitter = none ∧ s.slc.answers ≠ [] := by
  have hchoice : s.choice = some .answer ↔ s.slc.answers ≠ [] := by
    unfold State.choice
    cases s.slc.answers with
    | cons a as => simp
    | nil =>
      simp only [List.isEmpty_nil, Bool.not_true, Bool.false_eq_true, if_false]
      split_ifs <;> simp
  rw [State.chooses, Bool.and_eq_true, Option.isNone_iff_eq_none, decide_eq_true_iff, hchoice]

theorem chooses_attention_iff : s.chooses .attention = true
    ↔ s.slc.transmitter = none ∧ s.slc.answers = []
      ∧ (s.noticeLevel = some 3 ∨ (s.clb.offer = false
          ∧ (s.noticeLevel = some 2 ∨ s.noticeLevel = some 1))) := by
  have hchoice : s.choice = some .attention ↔ s.slc.answers = [] ∧ (s.noticeLevel = some 3
      ∨ (s.clb.offer = false ∧ (s.noticeLevel = some 2 ∨ s.noticeLevel = some 1))) := by
    unfold State.choice
    cases s.slc.answers with
    | cons a as => simp
    | nil =>
      simp only [List.isEmpty_nil, Bool.not_true, Bool.false_eq_true, if_false, true_and]
      by_cases h3 : s.noticeLevel = some 3
      · simp [h3]
      · cases s.clb.offer with
        | true => simp [h3]
        | false =>
          simp only [Bool.false_eq_true, if_false, h3, false_or, true_and]
          split_ifs with h1 h2 <;> simp [h1]
  rw [State.chooses, Bool.and_eq_true, Option.isNone_iff_eq_none, decide_eq_true_iff, hchoice]

theorem chooses_log_iff : s.chooses .log = true ↔ s.slc.transmitter = none ∧ s.slc.answers = []
    ∧ s.clb.offer = false ∧ (∀ n, s.noticeLevel = some n → ¬ (1 ≤ n ∧ n ≤ 3)) ∧ s.atu.ring ≠ [] := by
  have hlevel : (∀ n, s.noticeLevel = some n → ¬ (1 ≤ n ∧ n ≤ 3)) ↔ ¬ s.noticeLevel = some 3
      ∧ ¬ (s.noticeLevel = some 2 ∨ s.noticeLevel = some 1) := by
    cases hn : s.noticeLevel with
    | none => simp
    | some n =>
      simp only [Option.some.injEq, forall_eq']
      omega
  have hchoice : s.choice = some .log ↔ s.slc.answers = [] ∧ s.clb.offer = false
      ∧ (¬ s.noticeLevel = some 3 ∧ ¬ (s.noticeLevel = some 2 ∨ s.noticeLevel = some 1))
      ∧ s.atu.ring ≠ [] := by
    unfold State.choice
    cases s.slc.answers with
    | cons a as => simp
    | nil =>
      simp only [List.isEmpty_nil, Bool.not_true, Bool.false_eq_true, if_false, true_and]
      by_cases h3 : s.noticeLevel = some 3
      · simp [h3]
      · cases s.clb.offer with
        | true => simp [h3]
        | false =>
          simp only [Bool.false_eq_true, if_false, h3, not_false_eq_true, true_and]
          by_cases h2 : s.noticeLevel = some 2 ∨ s.noticeLevel = some 1
          · rw [if_pos h2]
            simp [h2]
          · rw [if_neg h2]
            cases s.atu.ring <;> simp [h2]
  rw [State.chooses, Bool.and_eq_true, Option.isNone_iff_eq_none, decide_eq_true_iff, hchoice, hlevel]

/-! ## Attention notices (R151, R172) -/

theorem exec_takeAttentionNotice {rest : List (BayId × AttClass)} (hc : s.chooses .attention = true)
    (hq : s.atu.queue = (b, c) :: rest) : exec .takeAttentionNotice s
      = .next ((s.noticeTaken b c rest).transmit (.attention b c) 0x82 0
          (attentionPayload b c (s.level c) (s.flag b c))) := by
  change execTakeAttentionNotice s = _
  unfold execTakeAttentionNotice
  rw [hc, hq]

theorem exec_takeAttentionNotice_not (h : s.chooses .attention = false) :
    exec .takeAttentionNotice s = .next s := by
  change execTakeAttentionNotice s = _
  unfold execTakeAttentionNotice
  rw [h]

theorem noticeLevel_cons {rest : List (BayId × AttClass)} (h : s.atu.queue = x :: rest) :
    s.noticeLevel = some (s.level x.2) := by
  rw [State.noticeLevel, h]

theorem noticeLevel_nil (h : s.atu.queue = []) : s.noticeLevel = none := by
  rw [State.noticeLevel, h]

/-- The end of a notice's transmission at its flag. -/
theorem noticeEnded_eq : s.noticeEnded b c
    = if (s.flag b c).state = .notifying then s.setFlag b c { s.flag b c with state := .notified }
      else s := by
  unfold State.noticeEnded
  cases (s.flag b c).state <;> rfl

theorem exec_attentionEndOfTransmission {f : Transmission} (hf : s.slc.transmitter = some f)
    (hs : f.source = .attention b c) :
    exec .attentionEndOfTransmission s = .next (s.noticeEnded b c).freeTransmitter := by
  have hsend : s.sender = some (.attention b c) := by rw [State.sender, hf, ← hs]; rfl
  change execAttentionEndOfTransmission s = _
  unfold execAttentionEndOfTransmission
  rw [hsend]

/-- Settles O52, by the arbiter's choice and the rules of the flags. -/
theorem noticesNotifyTheirFlags : Obligations.NoticesNotifyTheirFlags := by
  refine ⟨fun s b c rest ht ha hq h1 h3 ho => ?_, fun s h => exec_takeAttentionNotice_not ?_,
    fun s f b c hf hs => ?_⟩
  · have hc : s.chooses .attention = true := by
      have hl := noticeLevel_cons hq
      refine chooses_attention_iff.mpr ⟨ht, ha, ?_⟩
      rw [hl]
      by_cases hl3 : s.level c = 3
      · exact .inl (congrArg some hl3)
      · refine .inr ⟨Bool.eq_false_iff.mpr fun h => hl3 (ho h), ?_⟩
        simp only [Option.some.injEq]
        omega
    have hflag (b' : BayId) (c' : AttClass) := noticeTaken_flag (s := s) (b := b) (c := c)
      (b' := b') (c' := c') (rest := rest)
    refine ⟨_, exec_takeAttentionNotice hc hq, ?_, rfl, fun b' c' hne => ?_, rfl, rfl, rfl, rfl, rfl⟩
    · exact (hflag b c).trans (if_pos rfl)
    · exact (hflag b' c').trans (if_neg hne)
  · rw [Bool.eq_false_iff, ne_eq, chooses_attention_iff]
    rintro ⟨h1, h2, h3⟩
    rcases h with h | h | h | ⟨h, q, rest, hq, hl⟩
    · exact h h1
    · exact h h2
    · rw [noticeLevel_nil h] at h3
      simp at h3
    · rw [noticeLevel_cons hq, h] at h3
      simp [hl] at h3
  · have he := exec_attentionEndOfTransmission hf hs
    rw [noticeEnded_eq] at he
    by_cases hn : (s.flag b c).state = .notifying
    · rw [if_pos hn] at he
      have hflag (b' : BayId) (c' : AttClass) := setFlag_flag (s := s) (b := b) (c := c)
        (b' := b') (c' := c') (f := { s.flag b c with state := .notified })
      exact ⟨_, he, rfl, (hflag b c).trans ((if_pos rfl).trans (if_pos hn).symm),
        fun b' c' hne => (hflag b' c').trans (if_neg hne), rfl, rfl, rfl, rfl⟩
    · rw [if_neg hn] at he
      exact ⟨_, he, rfl, (if_neg hn).symm, fun _ _ _ => rfl, rfl, rfl, rfl, rfl⟩

/-! ## Answers and log lines (R158, R171, R172) -/

theorem exec_takeAnswer_not (h : s.chooses .answer = false) : exec .takeAnswer s = .next s := by
  change execTakeAnswer s = _
  unfold execTakeAnswer
  rw [h]

theorem exec_takeAnswer {a : Answer} {rest : List Answer} (ht : s.slc.transmitter = none)
    (ha : s.slc.answers = a :: rest) : exec .takeAnswer s
      = .next (({ s with slc := { s.slc with answers := rest } } : State).transmit .answer 0x80 a.tag
          a.payload) := by
  have hc : s.chooses .answer = true := chooses_answer_iff.mpr ⟨ht, by rw [ha]; simp⟩
  change execTakeAnswer s = _
  unfold execTakeAnswer
  rw [hc, ha]

theorem exec_takeLogLine {l : LogLine} {rest : List LogLine} (hc : s.chooses .log = true)
    (hr : s.atu.ring = l :: rest) : exec .takeLogLine s
      = .next ((s.logTaken l rest).transmit .log 0x83 0 (l.payload (s.atu.dropped.get l.bay))) := by
  change execTakeLogLine s = _
  unfold execTakeLogLine
  rw [hc, hr]

theorem exec_takeLogLine_not (h : s.chooses .log = false) : exec .takeLogLine s = .next s := by
  change execTakeLogLine s = _
  unfold execTakeLogLine
  rw [h]

theorem exec_frameEndOfTransmission : exec .frameEndOfTransmission s = .next (match s.sender with
    | some .answer => s.freeTransmitter
    | some .log => s.freeTransmitter
    | some .batch => s
    | some (.attention _ _) => s
    | none => s) := rfl

/-- Settles O53, by the arbiter's choice; the bounds of the link are kept by every step. -/
theorem answersFirstAndLogLast : Obligations.AnswersFirstAndLogLast := by
  refine ⟨fun s a rest ht ha => ?_, fun s h => exec_takeAnswer_not ?_,
    fun s l rest ht ha hq ho hr => ?_, fun s h => exec_takeLogLine_not ?_, fun s f hf hs => ?_,
    fun s h => ?_, fun s t hs h => step_linkBounds hs h⟩
  · exact exec_takeAnswer ht ha
  · rw [Bool.eq_false_iff, ne_eq, chooses_answer_iff]
    rintro ⟨h1, h2⟩
    exact h.elim (fun h => h h1) h2
  · have hc : s.chooses .log = true := by
      refine chooses_log_iff.mpr ⟨ht, ha, ho, fun n hn => ?_, by rw [hr]; simp⟩
      rw [noticeLevel_nil hq] at hn
      cases hn
    refine ⟨_, exec_takeLogLine hc hr, rfl, fun b => ?_, rfl, rfl, rfl, rfl, rfl, rfl⟩
    change (s.atu.dropped.set l.bay.val 0 l.bay.isLt).get b = _
    rw [Vector.get_eq_getElem, Vector.get_eq_getElem, Vector.getElem_set]
    by_cases hb : b = l.bay
    · rw [if_pos hb, if_pos (congrArg Fin.val hb.symm)]
    · rw [if_neg hb, if_neg fun h => hb (Fin.ext h.symm)]
  · rw [Bool.eq_false_iff, ne_eq, chooses_log_iff]
    rintro ⟨h1, h2, h3, h4, h5⟩
    rcases h with h | h | h | ⟨q, rest, hq, hl⟩ | h
    · exact h h1
    · exact h h2
    · exact absurd (h3.symm.trans h) (by simp)
    · exact h4 _ (noticeLevel_cons hq) hl
    · exact h5 h
  · have hsend : s.sender = some f.source := by rw [State.sender, hf]; rfl
    rw [exec_frameEndOfTransmission, hsend]
    rcases hs with h | h <;> rw [h] <;> rfl
  · rw [exec_frameEndOfTransmission]
    cases hf : s.slc.transmitter with
    | none =>
      have hsend : s.sender = none := by rw [State.sender, hf]; rfl
      rw [hsend]
    | some f =>
      have hsend : s.sender = some f.source := by rw [State.sender, hf]; rfl
      obtain ⟨h1, h2⟩ := h f hf
      rw [hsend]
      cases hs : f.source with
      | answer => exact absurd hs h1
      | log => exact absurd hs h2
      | batch => rfl
      | attention b c => rfl

/-! ## CONFIGURE_STATION (R152, R174) -/

/-- The consequences of a CONFIGURE_STATION for flags and queue. -/
structure Reevaluated (r : StationSettings) (s t : State) : Prop where
  flags : ∀ b c, t.flag b c = { s.flag b c with queued := (t.flag b c).queued }
  queued : (r.threshold.isSome = true ∨ r.levels.isSome = true) → ∀ b c,
    (s.flag b c).state = .raised →
    ((t.flag b c).queued = true ↔ t.qualifies c = true)
    ∧ ((b, c) ∈ t.atu.queue ↔ t.qualifies c = true)
  order : (r.threshold.isSome = true ∨ r.levels.isSome = true) →
    t.atu.queue.Pairwise fun x y => t.level y.2 < t.level x.2
      ∨ (t.level x.2 = t.level y.2 ∧ (s.flag x.1 x.2).position ≤ (s.flag y.1 y.2).position)

theorem reevaluated (r : StationSettings) (s : State) :
    Reevaluated r s (if r.threshold.isSome || r.levels.isSome then s.reevaluate else s) := by
  by_cases hr : (r.threshold.isSome || r.levels.isSome) = true
  · rw [if_pos hr]
    obtain ⟨h1, h2, h3, -⟩ := reevaluate_spec s
    obtain ⟨k1, k2, -⟩ := reevaluate_same (s := s)
    have hq (c : AttClass) : s.reevaluate.qualifies c = s.qualifies c := by
      rw [State.qualifies, State.qualifies, State.level, State.level, k1, k2]
    have hl (c : AttClass) : s.reevaluate.level c = s.level c := by
      simp only [State.level, k1]
    refine ⟨fun b c => ?_, fun _ b c hs => ⟨?_, ?_⟩, fun _ => ?_⟩
    · rw [h1]
      split <;> rfl
    · rw [h1, if_pos hs, hq]
    · rw [h2, hq, State.wants, decide_eq_true hs, Bool.true_and]
    · simp only [hl]
      exact h3
  · rw [if_neg hr]
    have hno : ¬ (r.threshold.isSome = true ∨ r.levels.isSome = true) := by
      simpa only [Bool.or_eq_true] using hr
    exact ⟨fun _ _ => rfl, fun h => absurd h hno, fun h => absurd h hno⟩

theorem exec_configureStation {r : StationSettings} (ha : Arrives s p) (ht : tag ≠ 0)
    (hp : readStationSettings p = some r) (hm : r.meaningful = true) :
    exec (.configureStation tag p) s = .next (((atTaking s).configureStation r).answer 0x02 tag .ok
      (.station ((atTaking s).configureStation r).stationReport)) := by
  change Host.Outcome.next (s.arrives 0x02 tag p (State.requestConfigureStation tag p)) = _
  rw [arrives_atTaking ha, State.requestConfigureStation, hp, checked_passed ht hm]

/-- The state with the offer of the head set. -/
def State.withOffer (s : State) (q : Bool) : State := { s with clb := { s.clb with offer := q } }

/-- A changed batch parameter tests the head again, which changes the offer alone (R133). -/
theorem configureStation_retested (r : StationSettings) (s : State) : ∃ q,
    s.configureStation r
      = (if r.threshold.isSome || r.levels.isSome then (s.storeStation r).reevaluate
          else s.storeStation r).withOffer q := by
  unfold State.configureStation
  simp only
  generalize (if r.threshold.isSome || r.levels.isSome then (s.storeStation r).reevaluate
    else s.storeStation r) = w
  split
  · exact ⟨w.headDue, rfl⟩
  · exact ⟨w.clb.offer, rfl⟩

/-- A re-evaluation leaves the station's parameters and all outside flags and queue. -/
theorem reevaluatedIf_same (q : Bool) :
    SameBesidesAtu s (if q then s.reevaluate else s)
    ∧ SameAttention s (if q then s.reevaluate else s) := by
  cases q
  · exact ⟨.refl s, .refl s⟩
  · exact ⟨reevaluate_frame, reevaluate_same⟩

theorem clampLevels_get (ls : List Nat) (i : Fin 9) :
    (clampLevels ls).get i = min 3 (ls.getD i.val 0) := by
  rw [clampLevels, Vector.get_eq_getElem, Vector.getElem_ofFn, clampRange, Nat.zero_max]

/-- Settles O56: the present values applied, then the re-evaluation, then the test of the head. -/
theorem configureStationClampsAndApplies : Obligations.ConfigureStationClampsAndApplies := by
  intro tag p s r ha ht hp hm
  have he := exec_configureStation ha ht hp hm
  obtain ⟨q, hc⟩ := configureStation_retested r (atTaking s)
  rw [hc] at he
  obtain ⟨hflags, hqueued, horder⟩ := reevaluated r ((atTaking s).storeStation r)
  obtain ⟨hrest, hatt⟩ := reevaluatedIf_same (s := (atTaking s).storeStation r)
    (r.threshold.isSome || r.levels.isSome)
  generalize (if r.threshold.isSome || r.levels.isSome then ((atTaking s).storeStation r).reevaluate
    else (atTaking s).storeStation r) = w at *
  have hqual (c : AttClass) : w.qualifies c = true ↔ 1 ≤ w.level c ∧ w.atu.threshold ≤ w.level c :=
    qualifies_iff
  refine ⟨_, he, hatt.threshold.trans ?_, fun i => ?_, ?_, ?_, hrest.seatDebounceMs.trans ?_, ?_,
    hflags, fun h b c hs => ?_, horder, hrest.bays, hrest.exchanges, hrest.groups, ?_, ?_, hatt.ring⟩
  · cases hr : r.threshold <;> simp only [State.storeStation, hr] <;> rfl
  · refine (congrArg (fun l => Vector.get l i) hatt.levels).trans ?_
    cases hr : r.levels with
    | none => simp only [State.storeStation, hr]; rfl
    | some ls =>
      simp only [State.storeStation, hr, Option.map_some, Option.getD_some]
      exact clampLevels_get ls i
  · refine (congrArg Clb.pressure hrest.clb).trans ?_
    cases hr : r.pressure <;> simp only [State.storeStation, hr] <;> rfl
  · refine (congrArg Clb.holdMs hrest.clb).trans ?_
    cases hr : r.holdMs <;> simp only [State.storeStation, hr] <;> rfl
  · cases hr : r.seatDebounceMs <;> simp only [State.storeStation, hr] <;> rfl
  · rw [Answered, answer_answers]
    have hans : w.slc.answers = s.slc.answers := (congrArg Slc.answers hrest.slc).trans rfl
    exact congrArg (· ++ _) hans
  · obtain ⟨h1, h2⟩ := hqueued h b c hs
    exact ⟨h1.trans (hqual c), h2.trans (hqual c)⟩
  · have : w.clb.entries = s.clb.entries := (congrArg Clb.entries hrest.clb).trans rfl
    exact this
  · have : w.clb.hold = s.clb.hold := (congrArg Clb.hold hrest.clb).trans rfl
    exact this

end Sys2Proof.Machine
end

section
/-! PROOF. The checks of every request, station and USB resets, and power-on reset. -/

namespace Sys2Proof.Machine

open Sys2Proof.Claims

variable {s t w : State} {b : BayId} {c : AttClass} {tag : Tag} {p : List Byte} {kind : Byte}
  {i : Instr} {A : BaySet}

/-! ## The checks of every request (R167, R179, R180) -/

theorem checked_unreadable {α : Type} {parsed : Option α} {meaningful : α → Bool} {owner : α → State}
    (h : parsed.isSome = false) :
    s.checked kind tag parsed meaningful owner = s.answer kind tag .badFormat .none := by
  cases parsed with
  | none => rfl
  | some r => cases h

theorem checked_noTag {α : Type} {parsed : Option α} {meaningful : α → Bool} {owner : α → State}
    (h : parsed.isSome = true) :
    s.checked kind 0 parsed meaningful owner = s.answer kind 0 .badTag .none := by
  cases parsed with
  | none => cases h
  | some r => simp only [State.checked, if_true]

theorem checked_meaningless {α : Type} {parsed : Option α} {meaningful : α → Bool} {owner : α → State}
    (h : parsed.isSome = true) (ht : tag ≠ 0) (hm : parsed.any meaningful = false) :
    s.checked kind tag parsed meaningful owner = s.answer kind tag .badFormat .none := by
  cases parsed with
  | none => cases h
  | some r =>
    have hm : meaningful r = false := hm
    simp only [State.checked, if_neg ht, hm, Bool.false_eq_true, if_false]

/-- A request whose taking is a check of what its payload reads as: the three failing checks in order. -/
theorem request_checks {α : Type} {parsed : Option α} {meaningful : α → Bool} {owner : State → α → State}
    (ha : Arrives s p)
    (he : exec i s = .next (s.arrives kind tag p fun u => u.checked kind tag parsed meaningful (owner u))) :
    (parsed.isSome = false → exec i s = .next ((atTaking s).answer kind tag .badFormat .none))
    ∧ (parsed.isSome = true → tag = 0 → exec i s = .next ((atTaking s).answer kind tag .badTag .none))
    ∧ (parsed.isSome = true → tag ≠ 0 → parsed.any meaningful = false →
        exec i s = .next ((atTaking s).answer kind tag .badFormat .none)) := by
  rw [he, arrives_atTaking ha]
  refine ⟨fun h => by rw [checked_unreadable h], fun h ht => ?_,
    fun h ht hm => by rw [checked_meaningless h ht hm]⟩
  subst ht
  rw [checked_noTag h]

/-- As `request_checks`, where every payload that can be read is meaningful. -/
theorem request_checks_plain {α : Type} {parsed : Option α} {owner : State → α → State}
    (ha : Arrives s p)
    (he : exec i s
      = .next (s.arrives kind tag p fun u => u.checked kind tag parsed (fun _ => true) (owner u))) :
    (parsed.isSome = false → exec i s = .next ((atTaking s).answer kind tag .badFormat .none))
    ∧ (parsed.isSome = true → tag = 0 → exec i s = .next ((atTaking s).answer kind tag .badTag .none))
    ∧ (parsed.isSome = true → tag ≠ 0 → true = false →
        exec i s = .next ((atTaking s).answer kind tag .badFormat .none)) := by
  obtain ⟨h1, h2, -⟩ := request_checks ha he
  exact ⟨h1, h2, fun _ _ h => absurd h (by simp)⟩

theorem isRequestKind_unknown (h : kind.toNat = 0 ∨ 14 < kind.toNat) : isRequestKind kind = false := by
  rw [isRequestKind, Bool.and_eq_false_iff, decide_eq_false_iff_not, decide_eq_false_iff_not]
  omega

/-- Settles O54: every request's taking is one check of what its payload reads as. -/
theorem requestChecksInOrder : Obligations.RequestChecksInOrder := by
  intro s tag p ha u
  refine ⟨fun kind i read meant h => ?_, fun kind h => ?_⟩
  · simp only [List.mem_cons, Prod.mk.injEq, List.not_mem_nil, or_false] at h
    rcases h with ⟨rfl, rfl, rfl, rfl⟩ | ⟨rfl, rfl, rfl, rfl⟩ | ⟨rfl, rfl, rfl, rfl⟩
      | ⟨rfl, rfl, rfl, rfl⟩ | ⟨rfl, rfl, rfl, rfl⟩ | ⟨rfl, rfl, rfl, rfl⟩ | ⟨rfl, rfl, rfl, rfl⟩
      | ⟨rfl, rfl, rfl, rfl⟩ | ⟨rfl, rfl, rfl, rfl⟩ | ⟨rfl, rfl, rfl, rfl⟩ | ⟨rfl, rfl, rfl, rfl⟩
      | ⟨rfl, rfl, rfl, rfl⟩ | ⟨rfl, rfl, rfl, rfl⟩ | ⟨rfl, rfl, rfl, rfl⟩
    · exact request_checks_plain ha rfl
    · exact request_checks ha rfl
    · exact request_checks ha rfl
    · exact request_checks_plain ha rfl
    · exact request_checks ha rfl
    · exact request_checks ha rfl
    · exact request_checks ha rfl
    · exact request_checks ha rfl
    · exact request_checks ha rfl
    · exact request_checks_plain ha rfl
    · exact request_checks_plain ha rfl
    · exact request_checks_plain ha rfl
    · exact request_checks ha rfl
    · exact request_checks_plain ha rfl
  · change Host.Outcome.next (if isRequestKind kind then s else
      s.arrives kind tag p (State.requestUnknown kind tag)) = _
    rw [isRequestKind_unknown h, if_neg Bool.false_ne_true, arrives_atTaking ha]
    rfl

/-! ## Station reset (R22, R39, R69, R90, R124, R143, R159) -/

/-- What a pass of SEATED raises makes of a state whose SEATED flags are CLEAR and do not qualify. -/
structure SeatedRaised (l : List BayId) (A : BaySet) (s t : State) : Prop where
  raised : ∀ b, b ∈ l → inSet A b = true → (t.flag b .seated).state = .raised
    ∧ (t.flag b .seated).seating = (s.bay b).seating ∧ (t.flag b .seated).count = 0
    ∧ (t.flag b .seated).queued = false
  kept : ∀ b c, ¬ (b ∈ l ∧ inSet A b = true ∧ c = .seated) → t.flag b c = s.flag b c
  queue : t.atu.queue = s.atu.queue
  rest : SameBesidesAtu s t
  atu : t.atu.levels = s.atu.levels ∧ t.atu.threshold = s.atu.threshold ∧ t.atu.ring = s.atu.ring
    ∧ t.atu.dropped = s.atu.dropped

theorem seated_pass (l : List BayId) (hd : l.Nodup) (hq : s.qualifies .seated = false)
    (hc : ∀ b ∈ l, (s.flag b .seated).state = .clear) :
    SeatedRaised l A s
      (l.foldl (fun s b => if inSet A b then s.raiseFlag b .seated .none else s) s) := by
  induction l generalizing s with
  | nil =>
    exact ⟨fun _ h => absurd h List.not_mem_nil, fun _ _ _ => rfl, rfl, .refl s, rfl, rfl, rfl, rfl⟩
  | cons a l ih =>
    obtain ⟨ha, hd⟩ := List.nodup_cons.mp hd
    rw [List.foldl_cons]
    by_cases hA : inSet A a = true
    · rw [if_pos hA]
      have hca := hc a List.mem_cons_self
      obtain ⟨k1, k2, k3, k4⟩ := raiseFlag_settings (s := s) (b := a) (c := .seated) (d := .none)
      have hother {b : BayId} {c : AttClass} (h : ¬ (b = a ∧ c = .seated)) :
          (s.raiseFlag a .seated .none).flag b c = s.flag b c :=
        raiseFlag_flag_other fun he => h ⟨congrArg Prod.fst he, congrArg Prod.snd he⟩
      have hne {b : BayId} (hb : b ∈ l) : b ≠ a := fun e => ha (e ▸ hb)
      have hq' : (s.raiseFlag a .seated .none).qualifies .seated = false := by
        rw [State.qualifies, raiseFlag_level, k2]
        exact hq
      obtain ⟨i1, i2, i3, i4, i5, i6, i7, i8⟩ := ih hd hq' fun b hb => by
        rw [hother fun h => hne hb h.1]
        exact hc b (List.mem_cons_of_mem _ hb)
      refine ⟨fun b hb hin => ?_, fun b c h => ?_, i3.trans ?_, raiseFlag_frame.trans i4, i5.trans k1,
        i6.trans k2, i7.trans k3, i8.trans k4⟩
      · rcases List.mem_cons.mp hb with rfl | hb
        · rw [i2 b .seated fun h => ha h.1, raiseFlag_flag_fresh hca]
          exact ⟨rfl, rfl, rfl, hq⟩
        · have := i1 b hb hin
          rwa [raiseFlag_bay] at this
      · rw [i2 b c fun ⟨h1, h2⟩ => h ⟨List.mem_cons_of_mem _ h1, h2⟩]
        refine hother fun ⟨h1, h2⟩ => h ⟨?_, ?_, h2⟩
        · rw [h1]; exact List.mem_cons_self
        · rw [h1]; exact hA
      · rw [raiseFlag_fresh_queue hca, hq]
        rfl
    · rw [if_neg hA]
      obtain ⟨i1, i2, i3, i4, i5⟩ := ih (s := s) hd hq fun b hb => hc b (List.mem_cons_of_mem _ hb)
      refine ⟨fun b hb hin => ?_, fun b c h => i2 b c fun ⟨h1, h2⟩ =>
        h ⟨List.mem_cons_of_mem _ h1, h2⟩, i3, i4, i5⟩
      rcases List.mem_cons.mp hb with rfl | hb
      · exact absurd hin hA
      · exact i1 b hb hin

theorem power_stationReset_eq (q : Power) :
    q.stationReset = if q = .none then Power.none else .off := by
  cases q <;> rfl

/-- Station reset at every block. -/
theorem stationReset_wasReset (s : State) : StationWasReset s s.stationReset := by
  rw [stationReset_eq]
  have hatu : s.blocksReset.atu = s.atu.stationReset := rfl
  have hclear (b : BayId) (c : AttClass) : s.blocksReset.flag b c = .cleared := atu_stationReset_flag hatu b c
  have hq : s.blocksReset.qualifies .seated = false := by
    have hr : Atu.reset.threshold ≤ Atu.reset.levels.get AttClass.seated.code ↔ False := by decide
    rw [State.qualifies, Bool.and_eq_false_iff, decide_eq_false_iff_not, decide_eq_false_iff_not]
    exact .inr hr.mp
  have hseat (b : BayId) : inSet s.blocksReset.seatedBays b = true ↔ (s.bay b).seat = .seated := by
    rw [State.seatedBays, inSet_setOf, blocksReset_bay, decide_eq_true_iff]
    exact Iff.rfl
  have hpass : SeatedRaised allBays s.blocksReset.seatedBays s.blocksReset s.blocksReset.raiseSeated :=
    seated_pass allBays (List.nodup_finRange 24) hq fun b _ => by rw [hclear]; rfl
  generalize s.blocksReset.seatedBays = A at *
  generalize s.blocksReset.raiseSeated = t at *
  obtain ⟨hraised, hkept, hqueue, hrest, hlev, hthr, hring, hdrop⟩ := hpass
  have hclb : t.clb = s.clb.stationReset := hrest.clb
  refine ⟨hrest.exchanges, ?_, fun n => ?_, ⟨hlev, hthr, hqueue, hring, fun b => ?_⟩, fun b c => ?_,
    fun b hb => ?_, hrest.seatDebounceMs, hrest.bayCount.trans ?_, fun b => ?_⟩
  · rw [hclb]
    refine ⟨rfl, rfl, rfl, rfl, rfl, fun e he => ?_, List.length_map _⟩
    obtain ⟨d, hd, rfl⟩ := List.mem_map.mp he
    exact ⟨(List.mem_filter.mp hd).2, rfl, rfl, rfl⟩
  · rw [State.group, hrest.groups]
    simp [State.blocksReset, Vector.get_eq_getElem, State.group, Group.stationReset]
  · rw [hdrop]
    simp [hatu, Atu.stationReset, Atu.reset, Vector.get_eq_getElem]
  · by_cases h : c = .seated ∧ (s.bay b).seat = .seated
    · rw [if_pos h, h.1]
      exact (hraised b (mem_allBays b) ((hseat b).mpr h.2)).1
    · rw [if_neg h, hkept b c fun ⟨_, h2, h3⟩ => h ⟨h3, (hseat b).mp h2⟩, hclear]
      rfl
  · obtain ⟨-, h2, h3, h4⟩ := hraised b (mem_allBays b) ((hseat b).mpr hb)
    refine ⟨h2.trans ?_, h3, h4⟩
    rw [blocksReset_bay]
    rfl
  · simp [State.blocksReset]
  · rw [hrest.bay, blocksReset_bay]
    exact ⟨rfl, rfl, rfl, rfl, rfl, rfl, rfl, rfl, power_stationReset_eq _, rfl, rfl, rfl, rfl, rfl, rfl,
      rfl, rfl, rfl, rfl, rfl, rfl, rfl, rfl, rfl, rfl, rfl, rfl, rfl, rfl, rfl, rfl, rfl, rfl⟩

/-- A station reset speaks of nothing that the Station Link Controller holds. -/
theorem stationWasReset_of_slc {l l' : Slc} (h : StationWasReset { s with slc := l } t) :
    StationWasReset s { t with slc := l' } :=
  ⟨h.exchanges, h.clb, h.groups, h.atu, h.flags, h.seated, h.debounce, h.bayCount, h.bays⟩

/-- The answers after a parked request is answered RESET (R176, step 1). -/
theorem answerParkedReset_eq (s : State) : s.answerParkedReset = { s with slc := { s.slc with
    parked := none
    answers := s.slc.answers ++ (match s.slc.parked with
      | none => []
      | some (.sync k) => [{ tag := k, kind := 0x0B, status := .reset, content := .none }]
      | some (.query k _) => [{ tag := k, kind := 0x0C, status := .reset, content := .none }]) } } := by
  obtain ⟨-, -, -, -, -, -, -, slc, -⟩ := s
  obtain ⟨r, f, a, parked, x⟩ := slc
  cases parked with
  | none => simp [State.answerParkedReset]
  | some q => cases q <;> simp [State.answerParkedReset, State.answer]

theorem exec_resetStation (ha : Arrives s []) (ht : tag ≠ 0) : exec (.resetStation tag []) s
    = .next (((atTaking s).answerParkedReset.stationReset).answer 0x0E tag .ok .none) := by
  change Host.Outcome.next (s.arrives 0x0E tag [] (State.requestResetStation tag [])) = _
  rw [arrives_atTaking ha]
  exact congrArg _ (checked_passed ht rfl)

/-- Settles O57: either row is a station reset at every block, and differs in the Station Link
Controller's own part. -/
theorem stationAndUsbResets : Obligations.StationAndUsbResets := by
  refine ⟨fun tag s ha ht => ?_, fun s => ?_⟩
  · have he := exec_resetStation ha ht
    have hp := answerParkedReset_eq (atTaking s)
    generalize (atTaking s).answerParkedReset = v at he hp
    have hslc := stationReset_slc (s := v)
    have hw := stationReset_wasReset v
    generalize v.stationReset = w at he hslc hw
    refine ⟨_, he, ?_, ?_⟩
    · rw [hp] at hw
      exact stationWasReset_of_slc hw
    · have hown : (w.answer 0x0E tag .ok .none).slc = { w.slc with
          answers := w.slc.answers ++ [{ tag := tag, kind := 0x0E, status := .ok, content := .none }] } :=
        rfl
      have hlast : w.slc = { (atTaking s).slc with
          framesDropped := 0, parked := none
          answers := (atTaking s).slc.answers ++ (match s.slc.parked with
            | none => []
            | some (.sync k) => [{ tag := k, kind := 0x0B, status := .reset, content := .none }]
            | some (.query k _) => [{ tag := k, kind := 0x0C, status := .reset, content := .none }]) } :=
        hslc.trans (congrArg (fun v : State => { v.slc with framesDropped := 0 }) hp)
      rw [hlast] at hown
      exact hown
  · have hslc := stationReset_slc (s := s)
    have hw := stationReset_wasReset s
    have he : exec .usbBusReset s
        = .next { s.stationReset with slc := s.stationReset.slc.linkReset } := rfl
    generalize s.stationReset = w at he hslc hw
    refine ⟨_, he, stationWasReset_of_slc (l := s.slc) hw, rfl, rfl, rfl, rfl, ?_⟩
    change w.slc.transmitter.map _ = _
    rw [hslc]

/-! ## Power-on reset (R21, R178) -/

theorem latchedCount_eq (p q : Bool) :
    latchedCount p q = if p = true ∧ q = true then 24 else if p = true then 16 else 8 := by
  cases p <;> cases q <;> rfl

/-- Settles O58: power-on reset bay by bay, and the reset values. -/
theorem powerOnResetLeavesTheResetValues : Obligations.PowerOnResetLeavesTheResetValues := by
  refine ⟨fun p q s => ?_, fun b => ?_, fun n => ?_, rfl, rfl, rfl, rfl, rfl, rfl, rfl, ?_, rfl,
    fun b c => reset_flag b c, rfl, rfl, fun b => ?_, rfl, rfl, rfl, rfl, rfl, rfl⟩
  · intro count
    have hcount : latchedCount p q = count := latchedCount_eq p q
    have he : ∃ t, exec (.powerOnReset p q) s = .next t := ⟨_, rfl⟩
    obtain ⟨t, he⟩ := he
    have hbay := powerOnReset_bay he
    refine ⟨t, he, ?_, ?_, ?_, ?_, ?_, ?_, ?_, ?_, fun b => ⟨fun h => ?_, fun h => ?_⟩⟩
    · cases he; exact hcount
    · cases he; rfl
    · cases he; rfl
    · cases he; rfl
    · cases he; rfl
    · cases he; rfl
    · cases he; rfl
    · cases he; rfl
    · rw [hbay, hcount, Bay.powerOnReset, if_pos]
      · rfl
      · rw [h.1, decide_eq_true h.2]; rfl
    · rw [hbay, hcount, Bay.powerOnReset, if_neg]
      rwa [Bool.and_eq_true, decide_eq_true_iff]
  · rw [reset_bay]
    exact ⟨rfl, rfl, rfl, rfl, rfl, rfl, rfl, rfl, rfl, rfl, rfl, rfl, rfl, rfl, rfl, rfl, rfl, rfl, rfl,
      rfl, rfl, rfl, rfl, rfl, rfl, rfl, rfl, rfl, rfl, rfl, rfl, rfl, rfl⟩
  · simp [State.group, State.reset, Vector.get_eq_getElem]
  · decide
  · simp [State.reset, Atu.reset, Vector.get_eq_getElem]

end Sys2Proof.Machine
end

section
/-! PROOF. The frame receiver (section 10.2) and the taking of a whole frame (section 10.3). -/

namespace Sys2Proof.Machine

open Sys2Proof.Claims

variable {s t : State} {tag : Tag} {p body done : List Byte} {kind x l0 l1 : Byte} {i : Instr}
  {r : Receiver}

/-! ## One byte at the receiver (R163 to R166) -/

theorem exec_byte_held (h : s.slc.receiver.held = true) :
    exec (.byteTakenFromPipe x) s = .next s := by
  change execByteTakenFromPipe x s = _
  rw [execByteTakenFromPipe, if_pos h]

/-- A byte read, by the state of the receiver. -/
theorem exec_byte (h : r.held = false) : exec (.byteTakenFromPipe x) (s.withReceiver r)
    = .next (match r.state with
      | .hunt => s.withReceiver (Receiver.hunt x)
      | .length => (s.withReceiver r).takeLength x
      | .body => (s.withReceiver r).takeBodyByte x
      | .check => (s.withReceiver r).takeCheck x) := by
  change execByteTakenFromPipe x (s.withReceiver r) = _
  have hh : (s.withReceiver r).slc.receiver.held = true ↔ False := by
    change r.held = true ↔ False
    rw [h]
    simp
  rw [execByteTakenFromPipe, if_neg hh.mp]
  rfl

theorem lengthInRange_iff {n : Nat} : lengthInRange n = true ↔ 3 ≤ n ∧ n ≤ 512 := by
  rw [lengthInRange, Bool.and_eq_true, decide_eq_true_iff, decide_eq_true_iff]
  exact Iff.rfl

theorem rescan_eq (l0 l1 : Byte) : Receiver.rescan l0 l1
    = if l0 = 0xC3 then { Receiver.hunting with
        state := .length, lengthBytes := [l1], gap := started 20 }
      else if l1 = 0xC3 then { Receiver.hunting with state := .length, gap := started 20 }
      else .hunting := rfl

/-- Settles O59: HUNT, the held mark, and the discards by their cause. -/
theorem receiverHuntsAndDiscards : Obligations.ReceiverHuntsAndDiscards := by
  refine ⟨fun s x => ⟨fun h => ?_, exec_byte_held⟩, fun s => ?_⟩
  · have he := exec_byte (s := s) (x := x) (r := .hunting) rfl
    have hs : s.withReceiver .hunting = s := by rw [← h]; rfl
    rw [hs] at he
    exact he
  · intro after
    have hafter (r : Receiver) : s.discardFrame r = after r := rfl
    refine ⟨fun h => ⟨?_, fun l0 l1 hl => ?_⟩, fun h => ?_⟩
    · change execFrameDiscarded .checkMismatch s = _
      simp only [execFrameDiscarded, h, Bool.false_eq_true, if_false]
      rfl
    · change execFrameDiscarded (.lengthOutOfRange l0 l1) s = _
      have hr : ¬ lengthInRange (lengthOf l0 l1) = true := by
        rw [lengthInRange_iff, lengthOf]
        omega
      simp only [execFrameDiscarded, h, Bool.false_eq_true, if_false, if_neg hr, rescan_eq]
      rfl
    · change execGapTimerExpiry s = _
      exact congrArg Host.Outcome.next (if_pos h)

/-! ## A whole frame, byte by byte (R161 to R166) -/

/-- The receiver of a frame with this body, when `done` of the body has arrived. -/
def gathering (body done : List Byte) : Receiver :=
  { state := if body.length ≤ done.length then .check else .body
    lengthBytes := lengthBytesOf body, length := body.length, body := done, checkBytes := []
    gap := started 20, held := false }

theorem lengthOf_bytes (n : Nat) (h : n < 65536) :
    lengthOf (BitVec.ofNat 8 n) (BitVec.ofNat 8 (n / 256)) = n := by
  rw [lengthOf, BitVec.toNat_ofNat, BitVec.toNat_ofNat]
  omega

/-- The sync byte and the two length bytes. -/
theorem run_header (h1 : 3 ≤ body.length) (h2 : body.length ≤ 512) :
    run (([Config.syncByte] ++ lengthBytesOf body).map Instr.byteTakenFromPipe)
      (s.withReceiver .hunting) = .next (s.withReceiver (gathering body [])) := by
  have hsync : exec (.byteTakenFromPipe Config.syncByte) (s.withReceiver .hunting)
      = .next (s.withReceiver .synced) := by
    rw [exec_byte rfl]
    rfl
  have hfirst : exec (.byteTakenFromPipe (BitVec.ofNat 8 body.length)) (s.withReceiver .synced)
      = .next (s.withReceiver { Receiver.synced with
          lengthBytes := [BitVec.ofNat 8 body.length] }) := by
    rw [exec_byte rfl]
    rfl
  have hsecond : exec (.byteTakenFromPipe (BitVec.ofNat 8 (body.length / 256)))
      (s.withReceiver { Receiver.synced with lengthBytes := [BitVec.ofNat 8 body.length] })
      = .next (s.withReceiver (gathering body [])) := by
    have hr : lengthInRange body.length = true := lengthInRange_iff.mpr ⟨h1, h2⟩
    have hb : ¬ body.length ≤ ([] : List Byte).length := by
      rw [List.length_nil]
      omega
    rw [exec_byte rfl]
    change Host.Outcome.next (State.takeLength _ _) = _
    simp only [State.takeLength, State.withReceiver, lengthOf_bytes _ (by omega : body.length < 65536),
      hr, if_true, gathering, if_neg hb]
    rfl
  change run [.byteTakenFromPipe Config.syncByte, .byteTakenFromPipe (BitVec.ofNat 8 body.length),
    .byteTakenFromPipe (BitVec.ofNat 8 (body.length / 256))] _ = _
  simp only [run, hsync, hfirst, hsecond]

/-- The bytes of the body, after any of them. -/
theorem run_body (rest : List Byte) (h : body = done ++ rest) :
    run (rest.map Instr.byteTakenFromPipe) (s.withReceiver (gathering body done))
      = .next (s.withReceiver (gathering body body)) := by
  induction rest generalizing done with
  | nil =>
    rw [List.append_nil] at h
    rw [← h]
    rfl
  | cons x rest ih =>
    have hlt : ¬ body.length ≤ done.length := by rw [h]; simp
    have hone : exec (.byteTakenFromPipe x) (s.withReceiver (gathering body done))
        = .next (s.withReceiver (gathering body (done ++ [x]))) := by
      rw [exec_byte rfl]
      simp only [gathering, if_neg hlt]
      rfl
    rw [List.map_cons, run, hone]
    exact ih (by rw [h, List.append_assoc]; rfl)

/-- The two check bytes of a good frame. -/
theorem run_check : run ((checkBytesOf body).map Instr.byteTakenFromPipe)
      (s.withReceiver (gathering body body))
    = .next (s.goodFrame body (State.takeBody body)) := by
  obtain ⟨c0, c1, hc⟩ : ∃ c0 c1, checkBytesOf body = [c0, c1] := ⟨_, _, rfl⟩
  have hfirst : exec (.byteTakenFromPipe c0) (s.withReceiver (gathering body body))
      = .next (s.withReceiver { gathering body body with checkBytes := [c0] }) := by
    rw [exec_byte rfl]
    simp only [gathering, if_pos (Nat.le_refl _)]
    rfl
  have hsecond : exec (.byteTakenFromPipe c1)
      (s.withReceiver { gathering body body with checkBytes := [c0] })
      = .next (s.goodFrame body (State.takeBody body)) := by
    rw [exec_byte rfl]
    simp only [gathering, if_pos (Nat.le_refl _), State.takeCheck, State.withReceiver, hc, if_true]
    rfl
  rw [hc]
  simp only [List.map_cons, List.map_nil, run, hfirst, hsecond]

theorem run_frame (hs : s.slc.receiver = .hunting) (h1 : 3 ≤ body.length) (h2 : body.length ≤ 512) :
    run ((frameOf body).map Instr.byteTakenFromPipe) s
      = .next (s.goodFrame body (State.takeBody body)) := by
  have hself : s.withReceiver .hunting = s := by rw [← hs]; rfl
  have hhead := run_header (s := s) h1 h2
  have hbody := run_body (s := s) (body := body) (done := []) body (List.nil_append _).symm
  rw [hself] at hhead
  rw [frameOf, List.map_append, List.map_append, List.append_assoc, run_append hhead,
    run_append hbody, run_check]

/-! ## The taking of a body (R166, R167) -/

theorem bytesOf_two (n : Nat) : bytesOf 2 n = [BitVec.ofNat 8 n, BitVec.ofNat 8 (n / 256)] := rfl

theorem toNat_append_bytes (a c : Byte) : (a ++ c).toNat = 256 * a.toNat + c.toNat := by
  rw [BitVec.toNat_append, ← Nat.shiftLeft_add_eq_or_of_lt c.isLt, Nat.shiftLeft_eq]
  omega

/-- The two tag bytes make the tag again. -/
theorem tag_of_bytes (tag : Tag) :
    BitVec.ofNat 8 (tag.toNat / 256) ++ BitVec.ofNat 8 tag.toNat = tag := by
  refine BitVec.eq_of_toNat_eq ?_
  have := tag.isLt
  rw [toNat_append_bytes, BitVec.toNat_ofNat, BitVec.toNat_ofNat]
  omega

theorem bytes_of_tag (t0 t1 : Byte) : bytesOf 2 (t1 ++ t0).toNat = [t0, t1] := by
  have h0 := t0.isLt
  have h1 := t1.isLt
  rw [bytesOf_two, toNat_append_bytes]
  congr 1
  · refine BitVec.eq_of_toNat_eq ?_
    rw [BitVec.toNat_ofNat]
    omega
  · congr 1
    refine BitVec.eq_of_toNat_eq ?_
    rw [BitVec.toNat_ofNat]
    omega

theorem takeBody_bodyOf : State.takeBody (bodyOf kind tag p) s = s.takeRequest kind tag p := by
  rw [bodyOf, bytesOf_two]
  change s.takeRequest kind (_ ++ _) p = _
  rw [tag_of_bytes]

/-- A kind that is no request kind is answered UNKNOWN_KIND. -/
theorem takeRequest_unknown (h : kind.toNat = 0 ∨ 14 < kind.toNat) :
    s.takeRequest kind tag p = s.answer kind tag .unknownKind .none := by
  unfold State.takeRequest
  split
  case h_15 => rfl
  all_goals omega

/-- A request row is a frame of its kind taken whole. -/
theorem request_taken (ha : Arrives s p)
    (he : exec i s = .next (s.arrives kind tag p fun u => u.takeRequest kind tag p)) :
    exec i s = .next (State.takeBody (bodyOf kind tag p) (atTaking s)) := by
  rw [he, arrives_atTaking ha, takeBody_bodyOf]

theorem exec_heldFrameTaken : exec .heldFrameTaken s = .next (
    if s.slc.receiver.held && decide (s.slc.claimed < Config.answerPlaces) then
      (s.withReceiver .hunting).takeBody s.slc.receiver.body
    else s) := rfl

/-- Settles O60: the run over the frame's parts, then the held frame, and each kind's taking. -/
theorem goodFrameIsTakenWhole : Obligations.GoodFrameIsTakenWhole := by
  refine ⟨fun s body hs h1 h2 => ⟨fun hc => ?_, fun hc => ?_⟩, fun s body hs => ⟨fun hc => ?_, fun hc => ?_⟩,
    fun s tag p ha => ⟨fun kind i h => ?_, fun kind h => ?_⟩, fun body h => ?_⟩
  · exact (run_frame hs h1 h2).trans (congrArg Host.Outcome.next (if_pos hc))
  · exact (run_frame hs h1 h2).trans (congrArg Host.Outcome.next (if_neg (Nat.not_lt.mpr hc)))
  · rw [exec_heldFrameTaken, hs, if_pos]
    · rfl
    · exact decide_eq_true hc
  · rw [exec_heldFrameTaken, hs, if_neg]
    exact fun h => Nat.not_lt.mpr hc (of_decide_eq_true h)
  · simp only [List.mem_cons, Prod.mk.injEq, List.not_mem_nil, or_false] at h
    rcases h with ⟨rfl, rfl⟩ | ⟨rfl, rfl⟩ | ⟨rfl, rfl⟩ | ⟨rfl, rfl⟩ | ⟨rfl, rfl⟩ | ⟨rfl, rfl⟩
      | ⟨rfl, rfl⟩ | ⟨rfl, rfl⟩ | ⟨rfl, rfl⟩ | ⟨rfl, rfl⟩ | ⟨rfl, rfl⟩ | ⟨rfl, rfl⟩ | ⟨rfl, rfl⟩
      | ⟨rfl, rfl⟩ <;> exact request_taken ha rfl
  · rw [takeBody_bodyOf, takeRequest_unknown h]
  · obtain ⟨k, t0, t1, p, rfl⟩ : ∃ k t0 t1 p, body = k :: t0 :: t1 :: p := by
      match body, h with
      | k :: t0 :: t1 :: p, _ => exact ⟨k, t0, t1, p, rfl⟩
    refine ⟨k, t1 ++ t0, p, ?_⟩
    rw [bodyOf, bytes_of_tag]
    rfl

end Sys2Proof.Machine
end

section
/-! PROOF. SYNC, QUERY_BAY and their completion, and the end of a batch notice. -/

namespace Sys2Proof.Machine

open Sys2Proof.Claims

variable {s t u : State} {b : BayId} {tag : Tag} {p : List Byte} {e : Entry} {rest : List Entry}

/-! ## Parking and completion (R139, R140, R169) -/

/-- A marked head is due while it is OPEN. -/
theorem headDue_of_marked (he : s.clb.entries = e :: rest) (hm : e.syncMark = true ∨ e.queryMark = true) :
    s.headDue = !e.sending := by
  rw [Bool.eq_iff_iff, headDue_iff he, Bool.not_eq_true']
  exact ⟨fun h => h.1, fun h => ⟨h, .inr (.inr (.inr (.inr hm)))⟩⟩

theorem exec_sync (ha : Arrives s []) (ht : tag ≠ 0) :
    exec (.sync tag []) s = .next ((atTaking s).syncDecided tag) := by
  change Host.Outcome.next (s.arrives 0x0B tag [] (State.requestSync tag [])) = _
  rw [arrives_atTaking ha]
  exact congrArg _ (checked_passed ht rfl)

theorem exec_parkedRequestCompletion (h : s.clb.markCount = 0) :
    exec .parkedRequestCompletion s = .next s.completeParked :=
  congrArg Host.Outcome.next (if_pos h)

theorem completeParked_none (h : s.slc.parked = none) : s.completeParked = s := by
  simp only [State.completeParked, h]

theorem completeParked_sync (h : s.slc.parked = some (.sync tag)) : s.completeParked
    = ({ s with slc := { s.slc with parked := none } } : State).answer 0x0B tag .ok .none := by
  simp only [State.completeParked, h]

theorem completeParked_query (h : s.slc.parked = some (.query tag b)) : s.completeParked
    = ({ s with slc := { s.slc with parked := none } } : State).answer 0x0C tag .ok
        (.bay (s.bayReport b)) := by
  simp only [State.completeParked, h]

/-- Settles O47, by Table 8.6 and by the parked request. -/
theorem syncParksUntilNothingIsMarked : Obligations.SyncParksUntilNothingIsMarked := by
  refine ⟨fun tag s ha ht => ?_, fun s h => ?_⟩
  · intro u
    have he := exec_sync ha ht
    have hparked : u.slc.parked = s.slc.parked := rfl
    refine ⟨fun hp => ?_, fun hp hn => ?_, fun e rest hp hn => ?_⟩
    · have hp' : u.slc.parked.isSome = true := Option.isSome_iff_ne_none.mpr hp
      rw [he]
      exact congrArg Host.Outcome.next (if_pos hp')
    · have hu : u.clb.entries.isEmpty = true := List.isEmpty_iff.mpr hn
      rw [he, State.syncDecided, hparked, hp, if_neg (by simp), if_pos hu]
    · have hu : ¬ u.clb.entries.isEmpty = true := by
        have hu : u.clb.entries = e :: rest := hn
        simp [hu]
      have hoffer : (({ u with
          clb := { u.clb with
            entries := u.clb.entries.map fun e => { e with syncMark := true }
            markCount := u.clb.entries.length }
          slc := { u.slc with parked := some (.sync tag) } } : State)).headDue = !e.sending :=
        headDue_of_marked (e := { e with syncMark := true })
          (rest := rest.map fun e => { e with syncMark := true })
          (congrArg (List.map fun e : Entry => { e with syncMark := true }) hn) (.inl rfl)
      rw [he, State.syncDecided, hparked, hp, if_neg (by simp), if_neg hu, State.park, State.retest,
        hoffer]
      rfl
  · intro freed
    have he := exec_parkedRequestCompletion h
    refine ⟨fun tag hp => ?_, fun tag b hp => ?_, fun hp => ?_⟩
    · rw [he, completeParked_sync hp]
    · rw [he, completeParked_query hp]
    · rw [he, completeParked_none hp]

/-! ## QUERY_BAY (R141, R175) -/

theorem readQuery_byte {n : Nat} (h : n < 256) : readQuery [BitVec.ofNat 8 n] = some n := by
  have hn : (BitVec.ofNat 8 n).toNat = n := by
    rw [BitVec.toNat_ofNat]
    omega
  change some ((BitVec.ofNat 8 n).toNat + 256 * 0) = some n
  rw [hn, Nat.mul_zero, Nat.add_zero]

theorem inBuffer_iff : s.inBuffer b = true
    ↔ ∃ e ∈ s.clb.entries, e.board = boardOf b ∧ (e.slots.get (slotOf b)).isSome = true := by
  simp only [State.inBuffer, List.any_eq_true, Bool.and_eq_true, decide_eq_true_eq]

theorem exec_queryBay {n : Nat} (ha : Arrives s [BitVec.ofNat 8 n]) (ht : tag ≠ 0) (hn : n < 256) :
    exec (.queryBay tag [BitVec.ofNat 8 n]) s = .next (
      if h : n < 24 then
        if n < s.bayCount then (atTaking s).queryDecided tag ⟨n, h⟩
        else (atTaking s).answer 0x0C tag .badTarget .none
      else (atTaking s).answer 0x0C tag .badTarget .none) := by
  change Host.Outcome.next (s.arrives 0x0C tag _ (State.requestQueryBay tag _)) = _
  rw [arrives_atTaking ha, State.requestQueryBay, readQuery_byte hn]
  exact congrArg _ (checked_passed ht rfl)

theorem place_view (o : Option Place) :
    o.elim SlotView.empty Place.view = match o with
      | some (.step st) => .step st.tag
      | some (.held t) => .held t
      | none => .empty := by
  cases o with
  | none => rfl
  | some q => cases q <;> rfl

/-- The four places of a report: those occupied in order, then empty ones. -/
theorem reportPlaces_get (ps : List Place) {i : Nat} (hi : i < 4) :
    (ps.map Place.view ++ List.replicate (4 - ps.length) SlotView.empty)[i]?
      = some (ps[i]?.elim SlotView.empty Place.view) := by
  by_cases h : i < ps.length
  · rw [List.getElem?_append_left (by simpa using h), List.getElem?_map, List.getElem?_eq_getElem h]
    rfl
  · have hlen : (ps.map Place.view).length ≤ i := by simpa using h
    rw [List.getElem?_append_right hlen, List.getElem?_replicate, List.length_map, if_pos (by omega),
      List.getElem?_eq_none (Nat.not_lt.mp h)]
    rfl

theorem heldCount_eq (y : Bay) : y.heldCount
    = (if y.flight.isStep = false ∧ y.flight ≠ .empty then 1 else 0)
      + (y.places.filter fun p => !p.isStep).length := by
  have hheld : Place.isHeld = fun p => !p.isStep := by
    funext p
    cases p <;> rfl
  unfold Bay.heldCount
  rw [hheld]
  cases hf : y.flight <;> simp [Flight.isStep]

theorem resultList_eq (s : State) (b : BayId) : s.resultList b
    = ((s.clb.hold.filter fun q => decide (q.bay = b)).map fun q =>
        { tag := q.tag, kind := q.kind, outcome := q.outcome, inEntry := false })
      ++ (s.clb.entries.filter fun e => decide (e.board = boardOf b)).filterMap fun e =>
        (e.slots.get (slotOf b)).map fun q =>
          { tag := q.tag, kind := q.kind, outcome := q.outcome, inEntry := true } := by
  rw [State.resultList, List.filterMap_filter]
  simp only [decide_eq_true_eq]

/-- Settles O48: the request by Table 8.6 and the buffer, and the report part by part. -/
theorem queryBayAnswersOrParks : Obligations.QueryBayAnswersOrParks := by
  refine ⟨fun tag n s ha ht hn => ?_, fun s b => ?_⟩
  · intro u p
    have he := exec_queryBay ha ht hn
    refine ⟨fun h => ?_, fun b hb hc => ?_⟩
    · rw [he]
      split
      · rw [if_neg (by omega)]
      · rfl
    · have hlt : n < 24 := hb ▸ b.isLt
      have hbn : (⟨n, hlt⟩ : BayId) = b := Fin.ext hb.symm
      rw [dif_pos hlt, if_pos hc, hbn] at he
      intro inEntry
      have hin : u.inBuffer b = true ↔ inEntry := inBuffer_iff
      have hparked : u.slc.parked = s.slc.parked := rfl
      refine ⟨fun h => ?_, fun h hp => ?_, fun h hp => ?_⟩
      · have hno : (!u.inBuffer b) = true := by
          rw [Bool.not_eq_true', Bool.eq_false_iff]
          exact fun hn => h (hin.mp hn)
        rw [he, State.queryDecided, if_pos hno]
        rfl
      · have hyes : ¬ (!u.inBuffer b) = true := by rw [hin.mpr h]; simp
        have hp' : u.slc.parked.isSome = true := Option.isSome_iff_ne_none.mpr hp
        rw [he]
        exact congrArg Host.Outcome.next ((if_neg hyes).trans (if_pos hp'))
      · have hyes : ¬ (!u.inBuffer b) = true := by rw [hin.mpr h]; simp
        rw [State.queryDecided, if_neg hyes, hparked, hp, if_neg (by simp)] at he
        exact ⟨_, he, rfl, rfl, rfl, rfl, rfl, rfl, rfl⟩
  · intro y r
    refine ⟨⟨rfl, rfl, rfl, rfl, rfl, rfl⟩, ⟨rfl, rfl, rfl, rfl⟩, ⟨fun h => ?_, fun st h => ?_, fun t h => ?_⟩,
      fun i hi => ?_, fun h => ?_, heldCount_eq y, ⟨decide_eq_true_iff, rfl, rfl, rfl, rfl⟩,
      ⟨rfl, rfl, rfl, rfl⟩, rfl, rfl, resultList_eq s b⟩
    · exact congrArg Flight.view h
    · exact congrArg Flight.view h
    · exact congrArg Flight.view h
    · exact (reportPlaces_get y.places hi).trans (congrArg some (place_view _))
    · change (y.places.map Place.view ++ List.replicate (4 - y.places.length) SlotView.empty).length = 4
      rw [List.length_append, List.length_map, List.length_replicate]
      omega

/-! ## The end of a batch notice (R136) -/

/-- The state at the end of a batch notice when its entry is freed and reported (R136, steps 1 to 3). -/
def State.headFreed (s : State) (e : Entry) (rest : List Entry) : State :=
  { s with
    clb := { s.clb with
      entries := rest
      markCount := if e.syncMark || e.queryMark then s.clb.markCount - 1 else s.clb.markCount }
    exchanges :=
      if e.dropped then s.exchanges
      else if e.finalMark then s.exchanges.filter fun x => decide (x.tag ≠ e.tag)
      else s.exchanges.map fun x =>
        if x.tag = e.tag then { x with reported := x.reported ||| e.finals } else x }

theorem reportEntry_headFreed (s : State) (e : Entry) (rest : List Entry) :
    ({ s with clb := s.clb.freeHead e rest } : State).reportEntry e = s.headFreed e rest := by
  unfold State.reportEntry State.headFreed
  by_cases hd : e.dropped = true
  · rw [if_pos hd, if_pos hd]
    rfl
  · rw [if_neg hd, if_neg hd]
    by_cases hf : e.finalMark = true
    · rw [if_pos hf, if_pos hf]
      rfl
    · rw [if_neg hf, if_neg hf]
      rfl

/-- The completion of a parked request and the test of the head do not meet. -/
theorem completeParked_retest (s : State) : s.completeParked.retest = s.retest.completeParked := by
  cases hp : s.slc.parked with
  | none =>
    have hr : s.retest.slc.parked = none := hp
    rw [completeParked_none hp, completeParked_none hr]
  | some q =>
    cases q with
    | sync k =>
      have hr : s.retest.slc.parked = some (.sync k) := hp
      rw [completeParked_sync hp, completeParked_sync hr]
      rfl
    | query k b =>
      have hr : s.retest.slc.parked = some (.query k b) := hp
      rw [completeParked_query hp, completeParked_query hr]
      rfl

theorem batchEnded_eq (s : State) (e : Entry) (rest : List Entry) : s.batchEnded e rest
    = if s.clb.lastMark e then (s.headFreed e rest).placeHeld.retest.completeParked
      else (s.headFreed e rest).placeHeld.retest := by
  unfold State.batchEnded
  simp only [reportEntry_headFreed]
  split
  · exact completeParked_retest _
  · rfl

theorem lastMark_iff : s.clb.lastMark e = true
    ↔ (e.syncMark || e.queryMark) = true ∧ s.clb.markCount ≤ 1 := by
  rw [Clb.lastMark, Bool.and_eq_true, decide_eq_true_iff]
  exact and_congr Iff.rfl (by omega)

theorem exec_batchEnd {f : Transmission} (hf : s.slc.transmitter = some f) (hs : f.source = .batch)
    (he : s.clb.entries = e :: rest) :
    exec .batchEndOfTransmission s = .next (s.batchEnded e rest).freeTransmitter := by
  have hsend : s.sender = some .batch := by rw [State.sender, hf, ← hs]; rfl
  change execBatchEndOfTransmission s = _
  unfold execBatchEndOfTransmission
  rw [hsend, he]

/-- The completion of a parked request changes nothing outside the Station Link Controller, and leaves the
transmitter. -/
theorem completeParked_frame (s : State) :
    ∃ l, s.completeParked = { s with slc := l } := by
  unfold State.completeParked
  simp only
  split
  · exact ⟨s.slc, rfl⟩
  · exact ⟨_, rfl⟩
  · exact ⟨_, rfl⟩

/-- After the placing the Station Link Controller and the mark count are as the freeing left them. -/
theorem placed_keeps (s : State) : s.placeHeld.retest.slc = s.slc
    ∧ s.placeHeld.retest.clb.markCount = s.clb.markCount := by
  obtain ⟨hslc, -⟩ := placeHeld_rest (s := s)
  obtain ⟨-, -, -, -, -, hclb⟩ := placeHeld_spec s
  have hcount : s.placeHeld.clb.markCount = s.clb.markCount := (congrArg Clb.markCount hclb).trans rfl
  exact ⟨hslc, hcount⟩

/-- With nothing held a placement pass does nothing. -/
theorem placeHeld_nil (h : s.clb.hold = []) : s.placeHeld = s := by
  rw [State.placeHeld, h, State.placeHeldFrom, ← h]

/-- What stands behind the end of a batch notice: the freed head, a placement pass, the parked request's
completion where the freed head was the last marked one, and the transmitter FREE. -/
theorem batchEnd_cases {f : Transmission} (hf : s.slc.transmitter = some f) (hs : f.source = .batch)
    (he : s.clb.entries = e :: rest) :
    ∃ t, exec .batchEndOfTransmission s = .next t
      ∧ (¬ s.clb.lastMark e = true → t = ((s.headFreed e rest).placeHeld.retest).freeTransmitter)
      ∧ (s.clb.lastMark e = true →
          t = ((s.headFreed e rest).placeHeld.retest.completeParked).freeTransmitter) := by
  refine ⟨_, exec_batchEnd hf hs he, fun h => ?_, fun h => ?_⟩ <;> rw [batchEnded_eq]
  · rw [if_neg h]
  · rw [if_pos h]

/-- The parked request's answer where the freed head was the last marked one. -/
theorem completed_answer (hp : u.slc.parked = s.slc.parked) (ha : u.slc.answers = s.slc.answers)
    (ht : t = u.completeParked.freeTransmitter) :
    (s.slc.parked = none → t = u.freeTransmitter)
    ∧ (∀ tag, s.slc.parked = some (.sync tag) → t.slc.parked = none
        ∧ Answered s t { tag := tag, kind := 0x0B, status := .ok, content := .none })
    ∧ (∀ tag b, s.slc.parked = some (.query tag b) → t.slc.parked = none
        ∧ Answered s t { tag := tag, kind := 0x0C, status := .ok, content := .bay (u.bayReport b) }) := by
  rw [← hp]
  subst ht
  refine ⟨fun h => ?_, fun tag h => ?_, fun tag b h => ?_⟩
  · rw [completeParked_none h]
  · rw [completeParked_sync h]
    exact ⟨rfl, congrArg (· ++ _) ha⟩
  · rw [completeParked_query h]
    exact ⟨rfl, congrArg (· ++ _) ha⟩

/-- An unmarked head, or one beside other marked entries, is not the last marked one. -/
theorem not_last (h : (e.syncMark || e.queryMark) = false ∨ 2 ≤ s.clb.markCount) :
    ¬ s.clb.lastMark e = true := by
  rw [lastMark_iff]
  rintro ⟨hm, hc⟩
  rcases h with h | h
  · rw [h] at hm
    cases hm
  · omega

/-- Settles O45: the steps of R136 one after another; with nothing held the pass between them does
nothing. -/
theorem batchEndReportsAndRetires : Obligations.BatchEndReportsAndRetires := by
  refine ⟨fun s f e rest hf hs he hh hd => ?_, fun s f e rest hf hs he => ?_, fun s h => ?_⟩
  · intro marked
    obtain ⟨t, hex, hplain, hlast⟩ := batchEnd_cases hf hs he
    have hnil : (s.headFreed e rest).placeHeld = s.headFreed e rest := placeHeld_nil hh
    rw [hnil] at hplain hlast
    obtain ⟨l, hl, hlt⟩ : ∃ l, t = { (s.headFreed e rest).retest with slc := l } ∧ l.transmitter = none := by
      by_cases h : s.clb.lastMark e = true
      · obtain ⟨l, hl⟩ := completeParked_frame (s.headFreed e rest).retest
        rw [hlast h, hl]
        exact ⟨_, rfl, rfl⟩
      · rw [hplain h]
        exact ⟨_, rfl, rfl⟩
    refine ⟨t, hex, ?_, ?_, ?_, ?_, fun hfin => ?_, fun hfin => ?_, fun b => ?_, fun hm hc => ?_,
      fun h => ?_, ?_, ?_, ?_⟩
    · rw [hl]; rfl
    · rw [hl]; exact hh
    · rw [hl]; rfl
    · rw [hl]; exact hlt
    · rw [hl]
      exact (if_neg (by simp [hd])).trans (if_pos hfin)
    · rw [hl]
      exact (if_neg (by simp [hd])).trans (if_neg (by simp [hfin]))
    · rw [inSet_finals]
      exact hasFinal_iff
    · exact (completed_answer (u := (s.headFreed e rest).retest) rfl rfl
        (hlast (lastMark_iff.mpr ⟨hm, Nat.le_of_eq hc⟩))).2.1
    · rw [hplain fun hn => not_last h hn]
      exact ⟨rfl, rfl⟩
    · rw [hl]; rfl
    · rw [hl]; rfl
    · rw [hl]; rfl
  · intro marked freed free
    obtain ⟨t, hex, hplain, hlast⟩ := batchEnd_cases hf hs he
    obtain ⟨hslc, hcount⟩ := placed_keeps (s.headFreed e rest)
    have hu : exec .heldResultPlacement freed = .next (s.headFreed e rest).placeHeld.retest := rfl
    generalize (s.headFreed e rest).placeHeld.retest = u at *
    refine ⟨t, u, hex, hu, fun h => hplain fun hn => not_last h hn, fun hm hc => ?_⟩
    have ht := hlast (lastMark_iff.mpr ⟨hm, hc⟩)
    have hzero : u.clb.markCount = 0 := by
      rw [hcount]
      refine (if_pos hm).trans ?_
      omega
    obtain ⟨a1, a2, a3⟩ := completed_answer (s := s) (u := u) (congrArg Slc.parked hslc)
      (congrArg Slc.answers hslc) ht
    exact ⟨⟨_, exec_parkedRequestCompletion hzero, ht⟩, a1, a2, a3⟩
  · change execBatchEndOfTransmission s = _
    unfold execBatchEndOfTransmission
    split
    · next hsend he =>
      obtain ⟨f, hf, hs⟩ := Option.map_eq_some_iff.mp hsend
      rcases h with h | h
      · exact absurd hs (h f hf)
      · rw [h] at he
        cases he
    · rfl

end Sys2Proof.Machine
end

section
/-! PROOF. CANCEL (section 7.8): its end of the step at one bay, the pass over the pending bays, and the
windows that complete first. -/

namespace Sys2Proof.Machine

open Sys2Proof.Claims

variable {s t v w : State} {b b' : BayId} {tag u : Tag} {y z : Bay} {st : Step} {ps qs : List Place}
  {r : Result} {rs : List Result} {x x' : Exchange} {S : BaySet} {cause : Outcome}

/-! ## A bay that holds one step of an exchange (R103) -/

/-- The bay holds exactly one step of the exchange: in flight, or in its queue. -/
def HoldsOne (tag : Tag) (y : Bay) : Prop :=
  (y.flight.isStep = true ∧ (∃ st, y.flight = .step st ∧ st.tag = tag)
    ∧ ∀ q ∈ y.places, q.isStepOf tag = false)
  ∨ ((∀ st, y.flight = .step st → st.tag ≠ tag)
    ∧ (y.places.filter (Place.isStepOf tag)).length = 1)

/-- The one queued step of an exchange, between the places before and behind it. -/
theorem queue_split (h : (ps.filter (Place.isStepOf tag)).length = 1) :
    ∃ front st back, ps = front ++ .step st :: back ∧ st.tag = tag
      ∧ (∀ q ∈ front, q.isStepOf tag = false) ∧ ∀ q ∈ back, q.isStepOf tag = false := by
  obtain ⟨q, hq⟩ := List.length_eq_one_iff.mp h
  obtain ⟨front, back, rfl, hf, hp, hb⟩ := List.filter_eq_cons_iff.mp hq
  cases q with
  | held k => cases hp
  | step st =>
    refine ⟨front, st, back, rfl, of_decide_eq_true hp, fun q hq => Bool.eq_false_iff.mpr (hf q hq), ?_⟩
    exact fun q hq => Bool.eq_false_iff.mpr (List.filter_eq_nil_iff.mp hb q hq)

theorem queuedStep?_append (h : ∀ q ∈ ps, q.isStepOf tag = false) :
    queuedStep? tag (ps ++ qs) = queuedStep? tag qs := by
  induction ps with
  | nil => rfl
  | cons q ps ih =>
    have hrest := ih fun q hq => h q (List.mem_cons_of_mem _ hq)
    cases q with
    | held k => exact hrest
    | step st =>
      have hne : ¬ st.tag = tag := of_decide_eq_false (h _ List.mem_cons_self)
      rw [List.cons_append, queuedStep?, if_neg hne, hrest]

theorem endPlaceOf_append (placed : Bool) (h : ∀ q ∈ ps, q.isStepOf tag = false) :
    endPlaceOf tag placed (ps ++ qs) = ps ++ endPlaceOf tag placed qs := by
  induction ps with
  | nil => rfl
  | cons q ps ih =>
    have hrest := ih fun q hq => h q (List.mem_cons_of_mem _ hq)
    cases q with
    | held k => rw [List.cons_append, endPlaceOf, hrest, List.cons_append]
    | step st =>
      have hne : ¬ st.tag = tag := of_decide_eq_false (h _ List.mem_cons_self)
      rw [List.cons_append, endPlaceOf, if_neg hne, hrest, List.cons_append]

/-- The places after the end of the one queued step: gone, or its held result in its place. -/
theorem endPlaceOf_split (placed : Bool) (hst : st.tag = tag) (h : ∀ q ∈ ps, q.isStepOf tag = false) :
    endPlaceOf tag placed (ps ++ .step st :: qs) = ps ++ (if placed then qs else .held tag :: qs) := by
  rw [endPlaceOf_append placed h, endPlaceOf, if_pos hst]

/-! ## The final of a cancelled step (R114, R117) -/

/-- The finals that a CANCEL of an exchange forms at a bay. -/
def cancelFinals (tag : Tag) (s : State) (b : BayId) : List Result :=
  (endedFinals s b .cancelled).filter fun r => decide (r.tag = tag)

theorem queuedFinals_filter (s : State) (b : BayId) (cause : Outcome) (ps : List Place) :
    (ps.filterMap (placeFinal? s b cause)).filter (fun r => decide (r.tag = tag))
      = (ps.filter (Place.isStepOf tag)).filterMap (placeFinal? s b cause) := by
  induction ps with
  | nil => rfl
  | cons q ps ih =>
    cases q with
    | held k => exact ih
    | step st =>
      by_cases h : st.tag = tag
      · simp [placeFinal?, Place.isStepOf, finalResult, h, ih]
      · simp [placeFinal?, Place.isStepOf, finalResult, h, ih]

theorem cancelFinals_mem (h : r ∈ cancelFinals tag s b) : r.bay = b ∧ r.tag = tag := by
  obtain ⟨hm, ht⟩ := List.mem_filter.mp h
  exact ⟨(endedFinals_of_bay r hm).1, of_decide_eq_true ht⟩

/-- In flight: the one final of the exchange is that of the flight slot. -/
theorem cancelFinals_flight (hf : (s.bay b).flight = .step st) (ht : st.tag = tag)
    (hq : ∀ q ∈ (s.bay b).places, q.isStepOf tag = false) :
    cancelFinals tag s b = flightFinals s b .cancelled := by
  have hp : (s.bay b).places.filter (Place.isStepOf tag) = [] :=
    List.filter_eq_nil_iff.mpr fun q hm => by simp [hq q hm]
  rw [cancelFinals, endedFinals, List.filter_append, queuedFinals_eq, queuedFinals_filter, hp]
  unfold flightFinals
  rw [hf]
  simp [finalResult, ht]

/-- In the queue: it is that of the queued step. -/
theorem cancelFinals_queued {front back : List Place} (hf : ∀ st, (s.bay b).flight = .step st → st.tag ≠ tag)
    (hp : (s.bay b).places = front ++ .step st :: back) (ht : st.tag = tag)
    (h1 : ∀ q ∈ front, q.isStepOf tag = false) (h2 : ∀ q ∈ back, q.isStepOf tag = false) :
    cancelFinals tag s b = [s.finalOf b st.ended (st.replyAt .cancelled)] := by
  have hflight : (flightFinals s b .cancelled).filter (fun r => decide (r.tag = tag)) = [] := by
    unfold flightFinals
    cases hfl : (s.bay b).flight with
    | step st' => simp [finalResult, hf st' hfl]
    | empty => rfl
    | held k => rfl
  have hq : (s.bay b).places.filter (Place.isStepOf tag) = [.step st] := by
    rw [hp, List.filter_append, List.filter_eq_nil_iff.mpr fun q hm => by simp [h1 q hm],
      List.filter_cons_of_pos (p := Place.isStepOf tag) (a := .step st) (decide_eq_true ht),
      List.filter_eq_nil_iff.mpr fun q hm => by simp [h2 q hm], List.nil_append]
  rw [cancelFinals, endedFinals, List.filter_append, hflight, queuedFinals_eq, queuedFinals_filter, hq,
    finalOf_ended]
  rfl

/-! ## CANCEL at one bay (R117) -/

/-- What a CANCEL leaves of a bay that held one step of the exchange. -/
structure StepCancelled (tag : Tag) (y z : Bay) : Prop where
  flightGone : ∀ st, z.flight = .step st → st.tag ≠ tag
  queueGone : ∀ k ∈ z.places, k.isStepOf tag = false
  order : z.places.filter Place.isStep
    = (y.places.filter Place.isStep).filter fun k => !k.isStepOf tag
  inFlight : inFlightOf tag y = true →
    (z.flight = .empty ∨ z.flight = .held tag) ∧ z.places = y.places
  queued : inFlightOf tag y = false → z.flight = y.flight
  power : z.power = y.power
  line : z.line = y.line
  token : z.token = y.token

theorem inFlightOf_step (hf : y.flight = .step st) : inFlightOf tag y = decide (st.tag = tag) := by
  simp only [inFlightOf, hf]

theorem inFlightOf_false (h : ∀ st, y.flight = .step st → st.tag ≠ tag) : inFlightOf tag y = false := by
  unfold inFlightOf
  cases hf : y.flight with
  | step st => exact decide_eq_false (h st hf)
  | empty => rfl
  | held k => rfl

theorem endFlight_cancelled {ms : List Bool} (hf : y.flight = .step st) (ht : st.tag = tag)
    (hq : ∀ q ∈ y.places, q.isStepOf tag = false) : StepCancelled tag y (y.flightEnded ms).relink := by
  obtain ⟨k1, k2, k3, k4, k5, -⟩ := relink_keeps (y.flightEnded ms)
  have hfl : (y.flightEnded ms).relink.flight = .empty ∨ (y.flightEnded ms).relink.flight = .held tag := by
    rw [k4, Bay.flightEnded, hf, Flight.after, ← ht]
    simp only
    split
    · exact .inl rfl
    · exact .inr rfl
  refine ⟨fun st' h => ?_, by rw [k5]; exact hq, ?_, fun _ => ⟨hfl, k5⟩, fun h => ?_, k1, k3, k2⟩
  · rcases hfl with h' | h' <;> rw [h'] at h <;> cases h
  · rw [k5]
    refine (List.filter_eq_self.mpr fun q hm => ?_).symm
    rw [hq q (List.mem_of_mem_filter hm)]
    rfl
  · rw [inFlightOf_step hf, decide_eq_true ht] at h
    cases h

/-- A bay whose queued step of an exchange has ended, `placed` telling whether its final was placed. -/
def Bay.queuedEnded (y : Bay) (tag : Tag) (placed : Bool) : Bay :=
  { y with places := endPlaceOf tag placed y.places }

theorem endPlace_cancelled (placed : Bool) (hf : ∀ st, y.flight = .step st → st.tag ≠ tag)
    (hq : (y.places.filter (Place.isStepOf tag)).length = 1) :
    StepCancelled tag y (y.queuedEnded tag placed).relink := by
  rw [Bay.queuedEnded]
  obtain ⟨k1, k2, k3, k4, k5, -⟩ := relink_keeps { y with places := endPlaceOf tag placed y.places }
  obtain ⟨front, st, back, hp, ht, h1, h2⟩ := queue_split hq
  have hends := endPlaceOf_split (qs := back) placed ht h1
  rw [← hp] at hends
  have hno {l : List Place} (h : ∀ q ∈ l, q.isStepOf tag = false) :
      (l.filter Place.isStep).filter (fun k => !k.isStepOf tag) = l.filter Place.isStep :=
    List.filter_eq_self.mpr fun q hm => by rw [h q (List.mem_of_mem_filter hm)]; rfl
  refine ⟨by rw [k4]; exact hf, ?_, ?_, fun h => ?_, fun _ => k4, k1, k3, k2⟩
  · rw [k5, hends]
    intro q hm
    rcases List.mem_append.mp hm with hm | hm
    · exact h1 q hm
    · cases placed
      · rcases List.mem_cons.mp hm with rfl | hm
        · rfl
        · exact h2 q hm
      · exact h2 q hm
  · have hstep : (Place.step st).isStepOf tag = true := decide_eq_true ht
    rw [k5, hends, hp, List.filter_append, List.filter_append, List.filter_append, hno h1,
      List.filter_cons_of_pos rfl, List.filter_cons_of_neg (by simp [hstep]), hno h2]
    cases placed <;> rfl
  · rw [inFlightOf_false hf] at h
    cases h

theorem cancelQueued_eq (h : queuedStep? tag (s.bay b).places = some st) : s.cancelQueued tag b
    = (handOvers [s.finalOf b st.ended (st.replyAt .cancelled)] s).1.setBay b
        ((s.bay b).queuedEnded tag
          (s.handOver (s.finalOf b st.ended (st.replyAt .cancelled))).2).relink := by
  simp only [State.cancelQueued, h]
  rw [modBay_eq, handOver_bay]
  rfl

theorem cancelAt_flight_eq (hf : (s.bay b).flight = .step st) (ht : st.tag = tag) : s.cancelAt tag b
    = (handOvers (flightFinals s b .cancelled) s).1.setBay b
        ((s.bay b).flightEnded (handOvers (flightFinals s b .cancelled) s).2).relink := by
  have hend : (s.endFlight b .cancelled).modBay b Bay.relink
      = (handOvers (flightFinals s b .cancelled) s).1.setBay b
        ((s.bay b).flightEnded (handOvers (flightFinals s b .cancelled) s).2).relink := by
    rw [endFlight_eq, modBay_eq, setBay_bay_same, setBay_setBay]
  unfold State.cancelAt Bay.standing
  simp only [hf, if_pos ht]
  by_cases hl : (s.bay b).link = .measuring
  · simp only [if_pos hl, hend]
  · simp only [if_neg hl, hend]

theorem cancelAt_queued_eq (hf : ∀ st, (s.bay b).flight = .step st → st.tag ≠ tag)
    (hq : (s.bay b).places.any (Place.isStepOf tag) = true) :
    s.cancelAt tag b = s.cancelQueued tag b := by
  unfold State.cancelAt Bay.standing
  cases hfl : (s.bay b).flight with
  | step st => simp only [if_neg (hf st hfl), hq, if_true]
  | empty => simp only [hq, if_true]
  | held k => simp only [hq, if_true]

theorem cancelAt_absent_eq (hf : ∀ st, (s.bay b).flight = .step st → st.tag ≠ tag)
    (hq : ¬ (s.bay b).places.any (Place.isStepOf tag) = true) : s.cancelAt tag b = s := by
  unfold State.cancelAt Bay.standing
  cases hfl : (s.bay b).flight with
  | step st => simp only [if_neg (hf st hfl), if_neg hq]
  | empty => simp only [if_neg hq]
  | held k => simp only [if_neg hq]

/-- Whatever the bay holds, a CANCEL at it hands finals over and changes that bay. -/
theorem cancelAt_form (tag : Tag) (s : State) (b : BayId) :
    ∃ rs z, s.cancelAt tag b = (handOvers rs s).1.setBay b z := by
  by_cases hf : ∃ st, (s.bay b).flight = .step st ∧ st.tag = tag
  · obtain ⟨st, hf, ht⟩ := hf
    exact ⟨_, _, cancelAt_flight_eq hf ht⟩
  · have hf : ∀ st, (s.bay b).flight = .step st → st.tag ≠ tag := fun st h ht => hf ⟨st, h, ht⟩
    by_cases hq : (s.bay b).places.any (Place.isStepOf tag) = true
    · rw [cancelAt_queued_eq hf hq]
      cases hs : queuedStep? tag (s.bay b).places with
      | none =>
        have he : s.cancelQueued tag b = s := by simp only [State.cancelQueued, hs]
        exact ⟨[], s.bay b, he.trans setBay_self.symm⟩
      | some st => exact ⟨_, _, cancelQueued_eq hs⟩
    · exact ⟨[], s.bay b, (cancelAt_absent_eq hf hq).trans setBay_self.symm⟩

/-- At a bay that holds one step of the exchange, that step ends with the one final. -/
theorem cancelAt_eq (h : HoldsOne tag (s.bay b)) : ∃ z,
    s.cancelAt tag b = (handOvers (cancelFinals tag s b) s).1.setBay b z
    ∧ StepCancelled tag (s.bay b) z ∧ cancelFinals tag s b ≠ [] := by
  rcases h with ⟨-, ⟨st, hf, ht⟩, hq⟩ | ⟨hf, hq⟩
  · have hfin := cancelFinals_flight hf ht hq
    have he := cancelAt_flight_eq hf ht
    rw [← hfin] at he
    refine ⟨_, he, endFlight_cancelled hf ht hq, ?_⟩
    rw [hfin]
    unfold flightFinals
    rw [hf]
    exact List.cons_ne_nil _ _
  · obtain ⟨front, st, back, hp, ht, h1, h2⟩ := queue_split hq
    have hfin := cancelFinals_queued hf hp ht h1 h2
    have hany : (s.bay b).places.any (Place.isStepOf tag) = true :=
      List.any_eq_true.mpr ⟨.step st, by rw [hp]; simp, decide_eq_true ht⟩
    have hstep : queuedStep? tag (s.bay b).places = some st := by
      rw [hp, queuedStep?_append h1, queuedStep?, if_pos ht]
    have he := cancelQueued_eq hstep
    rw [← hfin, ← cancelAt_queued_eq hf hany] at he
    exact ⟨_, he, endPlace_cancelled _ hf hq, by rw [hfin]; exact List.cons_ne_nil _ _⟩

/-! ## The pass over the pending bays (R122) -/

theorem cancelAt_other (h : b' ≠ b) : (s.cancelAt tag b).bay b' = s.bay b' := by
  obtain ⟨rs, z, he⟩ := cancelAt_form tag s b
  rw [he, setBay_bay, if_neg h, handOvers_bay]

theorem cancelAt_bay (h : HoldsOne tag (s.bay b)) :
    StepCancelled tag (s.bay b) ((s.cancelAt tag b).bay b) := by
  obtain ⟨z, he, hz, -⟩ := cancelAt_eq h
  rw [he, setBay_bay_same]
  exact hz

theorem cancelFinals_congr (hb : v.bay b = s.bay b) (hw : ∀ u, v.windowOf u = s.windowOf u) :
    cancelFinals tag v b = cancelFinals tag s b := by
  have hf : flightFinals v b .cancelled = flightFinals s b .cancelled := by
    unfold flightFinals flightWindow neverOpened
    simp only [hb, hw]
  have hq : queuedFinals v b .cancelled = queuedFinals s b .cancelled := by
    rw [queuedFinals_eq, queuedFinals_eq, hb, placeFinal?_of_windowOf hw]
  rw [cancelFinals, cancelFinals, endedFinals, endedFinals, hf, hq]

/-- A pass of CANCEL over bays in their order: the final of each, one bay after another. -/
theorem cancel_pass (l : List BayId) (hd : l.Nodup)
    (hone : ∀ b ∈ l, inSet S b = true → HoldsOne tag (s.bay b)) :
    let t := l.foldl (fun s b => if inSet S b then s.cancelAt tag b else s) s
    let finals := l.flatMap fun b => if inSet S b then cancelFinals tag s b else []
    t.exchanges = (handOvers finals s).1.exchanges ∧ t.clb = (handOvers finals s).1.clb
    ∧ t.slc = s.slc ∧ t.atu = s.atu ∧ t.groups = s.groups := by
  induction l generalizing s with
  | nil => exact ⟨rfl, rfl, rfl, rfl, rfl⟩
  | cons a l ih =>
    obtain ⟨ha, hd⟩ := List.nodup_cons.mp hd
    simp only [List.foldl_cons, List.flatMap_cons]
    by_cases hA : inSet S a = true
    · simp only [if_pos hA]
      obtain ⟨z, he, -⟩ := cancelAt_eq (hone a List.mem_cons_self hA)
      have hne {b : BayId} (hb : b ∈ l) : b ≠ a := fun e => ha (e ▸ hb)
      have hx : (s.cancelAt tag a).exchanges = (handOvers (cancelFinals tag s a) s).1.exchanges := by
        rw [he]; rfl
      have hc : (s.cancelAt tag a).clb = (handOvers (cancelFinals tag s a) s).1.clb := by
        rw [he]; rfl
      have hrest : (s.cancelAt tag a).slc = s.slc ∧ (s.cancelAt tag a).atu = s.atu
          ∧ (s.cancelAt tag a).groups = s.groups := by
        rw [he, handOvers_eq]
        exact ⟨rfl, rfl, rfl⟩
      have hw (u : Tag) : (s.cancelAt tag a).windowOf u = s.windowOf u :=
        (windowOf_of_exchanges hx u).trans (windowOf_handOvers u)
      have hfinals : (l.flatMap fun b => if inSet S b then cancelFinals tag (s.cancelAt tag a) b else [])
          = l.flatMap fun b => if inSet S b then cancelFinals tag s b else [] :=
        List.flatMap_congr fun b hb => by rw [cancelFinals_congr (cancelAt_other (hne hb)) hw]
      obtain ⟨i1, i2, i3, i4, i5⟩ := ih (s := s.cancelAt tag a) hd fun b hb hin => by
        rw [cancelAt_other (hne hb)]
        exact hone b (List.mem_cons_of_mem _ hb) hin
      rw [hfinals] at i1 i2
      obtain ⟨-, ex, ec⟩ := handOvers_congr (rs := l.flatMap fun b =>
        if inSet S b then cancelFinals tag s b else []) hx hc
      refine ⟨?_, ?_, i3.trans hrest.1, i4.trans hrest.2.1, i5.trans hrest.2.2⟩
      · rw [handOvers_append]; exact i1.trans ex
      · rw [handOvers_append]; exact i2.trans ec
    · simp only [if_neg hA, List.nil_append]
      exact ih hd fun b hb => hone b (List.mem_cons_of_mem _ hb)

/-! ## The record after the finals (R113) -/

/-- What finals of one exchange make of its record. -/
structure FinalsFormed (rs : List Result) (x x' : Exchange) : Prop where
  tag : x'.tag = x.tag
  target : x'.target = x.target
  reported : x'.reported = x.reported
  text : x'.text = x.text
  pending : ∀ b, inSet x'.pending b = true ↔ inSet x.pending b = true ∧ ∀ r ∈ rs, r.bay ≠ b
  drained : rs ≠ [] → x'.pending = 0 → x'.state = .draining

theorem handOvers_record (hx : s.exchange? u = some x) (hr : ∀ r ∈ rs, r.tag = u) :
    ∃ x', (handOvers rs s).1.exchange? u = some x' ∧ FinalsFormed rs x x' := by
  induction rs generalizing s x with
  | nil => exact ⟨x, hx, rfl, rfl, rfl, rfl, fun b => by simp, fun h => absurd rfl h⟩
  | cons r rs ih =>
    have hone : (s.handOver r).1.exchange? u = some (x.finalFormed r.bay) := by
      rw [exchange?_handOver, hx, Option.map_some, if_pos]
      exact (exchange?_tag hx).trans (hr r List.mem_cons_self).symm
    obtain ⟨p1, p2, p3⟩ := finalFormed_spec x r.bay
    obtain ⟨x', h1, h2, h3, h4, h5, h6, h7⟩ := ih hone fun q hq => hr q (List.mem_cons_of_mem _ hq)
    refine ⟨x', h1, h2, h3, h4, h5, fun b => ?_, fun _ hz => ?_⟩
    · rw [h6, p1, Bool.and_eq_true, decide_eq_true_iff]
      simp only [List.mem_cons, forall_eq_or_imp, ne_eq, and_assoc]
      exact and_congr Iff.rfl (and_congr ⟨fun h e => h e.symm, fun h e => h e.symm⟩ Iff.rfl)
    · cases rs with
      | nil =>
        obtain rfl : x.finalFormed r.bay = x' := Option.some.inj (hone.symm.trans h1)
        exact p2 hz
      | cons q qs => exact h7 (List.cons_ne_nil _ _) hz

/-! ## Where the steps stand (R122) -/

theorem filter_cons_length {α : Type} (A : α → Bool) (a : α) (l : List α) :
    ((a :: l).filter A).length = (A a).toNat + (l.filter A).length := by
  rw [List.filter_cons]
  cases A a with
  | true => exact Nat.add_comm _ _
  | false => exact (Nat.zero_add _).symm

/-- Three parts of a list that share no member and make up a fourth. -/
theorem parts_length {α : Type} (l : List α) {A B C D : α → Bool}
    (h : ∀ a, (A a).toNat + (B a).toNat + (C a).toNat = (D a).toNat) :
    (l.filter A).length + (l.filter B).length + (l.filter C).length = (l.filter D).length := by
  induction l with
  | nil => rfl
  | cons a l ih =>
    have ha := h a
    simp only [filter_cons_length]
    omega

/-- A bay that holds one step of the exchange has it queued, in flight, or in flight and MEASURING. -/
theorem standing_spec (h : HoldsOne tag y) :
    decide (y.standing tag = .queued) = y.places.any (Place.isStepOf tag)
    ∧ decide (y.standing tag = .inFlight) = (inFlightOf tag y && !decide (y.link = .measuring))
    ∧ decide (y.standing tag = .measuring) = (inFlightOf tag y && decide (y.link = .measuring))
    ∧ inFlightOf tag y = !y.places.any (Place.isStepOf tag) := by
  unfold Bay.standing
  rcases h with ⟨-, ⟨st, hf, ht⟩, hq⟩ | ⟨hf, hq⟩
  · have hany : y.places.any (Place.isStepOf tag) = false :=
      List.any_eq_false.mpr fun q hm => by simp [hq q hm]
    have hin : inFlightOf tag y = true := (inFlightOf_step hf).trans (decide_eq_true ht)
    simp only [hany, hin, hf, if_pos ht]
    by_cases hl : y.link = .measuring <;> simp [hl]
  · have hany : y.places.any (Place.isStepOf tag) = true := by
      obtain ⟨front, st, back, hp, ht, -⟩ := queue_split hq
      exact List.any_eq_true.mpr ⟨.step st, by rw [hp]; simp, decide_eq_true ht⟩
    have hin : inFlightOf tag y = false := inFlightOf_false hf
    simp only [hany, hin]
    cases hfl : y.flight with
    | step st => simp [hf st hfl]
    | empty => simp
    | held k => simp

/-! ## The windows that complete first (R117, Table 7.9) -/

/-- The completions of a set of bays, in their order. -/
def State.completeAll (s : State) (S : BaySet) (l : List BayId) : State :=
  l.foldl (fun s b => if inSet S b then s.completeExchange b else s) s

theorem run_completions (l : List BayId) :
    run ((l.filter (inSet S)).map fun b => .windowCompletion b .exchange) s
      = .next (s.completeAll S l) := by
  induction l generalizing s with
  | nil => rfl
  | cons b l ih =>
    by_cases hb : inSet S b = true
    · rw [List.filter_cons_of_pos hb, List.map_cons, run, exec_exchangeCompletion]
      simp only [State.completeAll, List.foldl_cons, if_pos hb]
      exact ih
    · rw [List.filter_cons_of_neg hb, ih]
      simp only [State.completeAll, List.foldl_cons, if_neg hb]

/-- The state with another Station Link Controller. -/
def State.withSlc (s : State) (l : Slc) : State := { s with slc := l }

theorem handOver_withSlc (l : Slc) :
    (s.withSlc l).handOver r = ((s.handOver r).1.withSlc l, (s.handOver r).2) := by
  obtain ⟨h2, hx, hc⟩ := handOver_congr (s := s) (v := s.withSlc l) (r := r) rfl rfl
  refine Prod.ext ?_ h2
  have h1 := handOver_eq (s := s.withSlc l) (r := r)
  have h := handOver_eq (s := s) (r := r)
  rw [h1, hx, hc]
  change _ = (s.handOver r).1.withSlc l
  rw [h]
  rfl

theorem formFlight_withSlc (l : Slc) {rp : Reply} :
    (s.withSlc l).formFlight b st rp = (s.formFlight b st rp).withSlc l := by
  have hr : (s.withSlc l).finalOf b st rp = s.finalOf b st rp := rfl
  rw [formFlight_eq, formFlight_eq, hr, handOver_withSlc]
  rfl

theorem formResult_withSlc (l : Slc) :
    (s.withSlc l).formResult b = (s.formResult b).withSlc l := by
  have formed {st : Step} {rp : Reply} (hf : (s.bay b).flight = .step st) (hr : st.reply = some rp)
      (hw : st.window ≠ .scheduled ∧ st.window ≠ .opened) :
      (s.withSlc l).formResult b = (s.formResult b).withSlc l := by
    rw [formResult_ready hf hr hw, formResult_ready (s := s.withSlc l) hf hr hw, formFlight_withSlc]
    rfl
  rcases formResult_cases (s := s.withSlc l) (b := b) with h | ⟨st, rp, hf, hr, hw, -⟩
  · rcases formResult_cases (s := s) (b := b) with h' | ⟨st, rp, hf, hr, hw, -⟩
    · rw [h, h']
    · exact formed hf hr hw
  · exact formed hf hr hw

theorem completeExchange_withSlc (l : Slc) :
    (s.withSlc l).completeExchange b = (s.completeExchange b).withSlc l := by
  have hb : (s.withSlc l).bay b = s.bay b := rfl
  unfold State.completeExchange
  rw [hb]
  by_cases hd : (s.bay b).mu.exchangeAcc.due = true
  · rw [if_pos hd, if_pos hd, ← formResult_withSlc]
    rfl
  · rw [if_neg hd, if_neg hd]

theorem completeAll_withSlc (l : Slc) (bs : List BayId) :
    (s.withSlc l).completeAll S bs = (s.completeAll S bs).withSlc l := by
  induction bs generalizing s with
  | nil => rfl
  | cons b bs ih =>
    simp only [State.completeAll, List.foldl_cons]
    by_cases hb : inSet S b = true
    · rw [if_pos hb, if_pos hb, completeExchange_withSlc]
      exact ih
    · rw [if_neg hb, if_neg hb]
      exact ih

/-- A completed window is due no more. -/
theorem completeExchange_settled : ((s.completeExchange b).bay b).mu.exchangeAcc.due = false := by
  by_cases hd : (s.bay b).mu.exchangeAcc.due = true
  · obtain ⟨f, d, l, h⟩ := formResult_bay (s := s.modBay b Bay.exchangeCompleted) (b := b)
    rw [State.completeExchange, if_pos hd, h, modBay_bay_same]
    change (s.bay b).exchangeCompleted.mu.exchangeAcc.due = false
    rw [exchangeCompleted_acc]
    rfl
  · rw [completeExchange_eq_of_not_due (Bool.eq_false_iff.mpr hd)]
    exact Bool.eq_false_iff.mpr hd

theorem completeAll_settled (h : inSet S b = true) :
    ((s.completeAll S allBays).bay b).mu.exchangeAcc.due = false :=
  (forBays_bay (S := S) (s := s) (f := fun b s => s.completeExchange b)
    (R := fun _ z => z.mu.exchangeAcc.due = false)
    (fun b b' _ hne => (completeExchange_frame (b := b)).others b' hne)
    (fun _ _ => completeExchange_settled) b).2 h

/-- A completion adds no bay to a record's pending set. -/
theorem completeExchange_pending (h : (s.completeExchange b).exchange? u = some x') :
    ∃ x, s.exchange? u = some x ∧ ∀ b', inSet x'.pending b' = true → inSet x.pending b' = true := by
  by_cases hd : (s.bay b).mu.exchangeAcc.due = true
  · rw [State.completeExchange, if_pos hd] at h
    rcases formResult_cases (s := s.modBay b Bay.exchangeCompleted) (b := b) with
      he | ⟨st, rp, -, -, -, he⟩
    · rw [he] at h
      exact ⟨x', h, fun _ => id⟩
    · rw [he, formFlight_eq] at h
      have h : ((s.modBay b Bay.exchangeCompleted).handOver
          ((s.modBay b Bay.exchangeCompleted).finalOf b st rp)).1.exchange? u = some x' := h
      rw [exchange?_handOver] at h
      obtain ⟨x, hx, rfl⟩ := Option.map_eq_some_iff.mp h
      refine ⟨x, hx, fun b' hb' => ?_⟩
      split at hb'
      · rw [(finalFormed_spec x _).1, Bool.and_eq_true] at hb'
        exact hb'.1
      · exact hb'
  · rw [completeExchange_eq_of_not_due (Bool.eq_false_iff.mpr hd)] at h
    exact ⟨x', h, fun _ => id⟩

theorem completeAll_pending (l : List BayId) (h : (s.completeAll S l).exchange? u = some x') :
    ∃ x, s.exchange? u = some x ∧ ∀ b', inSet x'.pending b' = true → inSet x.pending b' = true := by
  induction l generalizing s with
  | nil => exact ⟨x', h, fun _ => id⟩
  | cons b l ih =>
    simp only [State.completeAll, List.foldl_cons] at h
    by_cases hb : inSet S b = true
    · rw [if_pos hb] at h
      obtain ⟨y, hy, hsub⟩ := ih h
      obtain ⟨x, hx, hsub'⟩ := completeExchange_pending hy
      exact ⟨x, hx, fun b' hb' => hsub' b' (hsub b' hb')⟩
    · rw [if_neg hb] at h
      exact ih h

/-- With nothing due in a set of bays their completions do nothing. -/
theorem completeAll_none (l : List BayId)
    (h : ∀ b, inSet S b = true → (s.bay b).mu.exchangeAcc.due = false) : s.completeAll S l = s := by
  induction l with
  | nil => rfl
  | cons b l ih =>
    simp only [State.completeAll, List.foldl_cons]
    by_cases hb : inSet S b = true
    · rw [if_pos hb, completeExchange_eq_of_not_due (h b hb)]
      exact ih
    · rw [if_neg hb]
      exact ih

theorem completePending_eq (hx : s.exchange? u = some x) :
    s.completePending u = s.completeAll x.pending allBays := by
  simp only [State.completePending, hx]
  rfl

/-- Where everything due at the pending bays of an exchange has completed, nothing is left to complete. -/
theorem completePending_settled (hx : s.exchange? u = some x) :
    (s.completeAll x.pending allBays).completePending u = s.completeAll x.pending allBays := by
  cases hx' : (s.completeAll x.pending allBays).exchange? u with
  | none => simp only [State.completePending, hx']
  | some x' =>
    rw [completePending_eq hx']
    refine completeAll_none allBays fun b hb => completeAll_settled ?_
    obtain ⟨y, hy, hsub⟩ := completeAll_pending allBays hx'
    obtain rfl : y = x := Option.some.inj (hy.symm.trans hx)
    exact hsub b hb

/-! ## The request (R122) -/

theorem exec_cancel (ha : Arrives s []) (ht : tag ≠ 0) : exec (.cancel tag []) s
    = .next (((atTaking s).completePending tag).decideCancel tag) := by
  change Host.Outcome.next (s.arrives 0x0A tag [] (State.requestCancel tag [])) = _
  rw [arrives_atTaking ha]
  exact congrArg _ (checked_passed ht rfl)

/-- The windows due at the pending bays may as well complete before the CANCEL arrives. -/
theorem cancel_after_completions (ha : Arrives s []) (ht : tag ≠ 0) (hx : s.exchange? tag = some x) :
    exec (.cancel tag []) s = exec (.cancel tag []) (s.completeAll x.pending allBays) := by
  have hself : s.withSlc s.slc = s := rfl
  have hslc : (s.completeAll x.pending allBays).slc = s.slc := by
    rw [← hself, completeAll_withSlc]
    rfl
  have ha' : Arrives (s.completeAll x.pending allBays) [] := by
    unfold Arrives
    rw [hslc]
    exact ha
  have htaking : atTaking (s.completeAll x.pending allBays)
      = (atTaking s).completeAll x.pending allBays := by
    have h := completeAll_withSlc (s := s) (S := x.pending) (atTaking s).slc allBays
    refine Eq.trans ?_ h.symm
    unfold atTaking
    rw [hslc]
    rfl
  have hx' : (atTaking s).exchange? tag = some x := hx
  rw [exec_cancel ha ht, exec_cancel ha' ht, htaking, completePending_settled hx',
    completePending_eq hx']

theorem exec_cancel_unknown (ha : Arrives s []) (ht : tag ≠ 0) (hx : s.exchange? tag = none) :
    exec (.cancel tag []) s = .next ((atTaking s).answer 0x0A tag .unknownTag .none) := by
  have hx' : (atTaking s).exchange? tag = none := hx
  rw [exec_cancel ha ht]
  simp only [State.completePending, hx', State.decideCancel]

theorem exec_cancel_draining (ha : Arrives s []) (ht : tag ≠ 0) (hx : s.exchange? tag = some x)
    (hd : x.state = .draining) (hp : x.pending = 0) :
    exec (.cancel tag []) s = .next ((atTaking s).answer 0x0A tag .ok (.cancelCounts 0 0 0)) := by
  have hx' : (atTaking s).exchange? tag = some x := hx
  have hnone : (atTaking s).completeAll x.pending allBays = atTaking s :=
    completeAll_none allBays fun b hb => absurd (baySet_eq_zero.mp hp b) (by simp [hb])
  rw [exec_cancel ha ht, completePending_eq hx', hnone]
  simp only [State.decideCancel, hx', State.cancelExchange, hd]

/-- The state of an OPEN exchange's CANCEL when the pending steps have ended and the record is marked. -/
def State.cancelled (s : State) (tag : Tag) (S : BaySet) : State :=
  (s.forBays S fun b s => s.cancelAt tag b).modExchange tag fun x => { x with cancelled := true }

theorem exec_cancel_opened (ha : Arrives s []) (ht : tag ≠ 0) (hx : s.exchange? tag = some x)
    (ho : x.state = .opened)
    (hd : ∀ b, inSet x.pending b = true → (s.bay b).mu.exchangeAcc.due = false) :
    exec (.cancel tag []) s = .next (((atTaking s).cancelled tag x.pending).answer 0x0A tag .ok
      (.cancelCounts (s.countStanding tag x.pending .queued)
        (s.countStanding tag x.pending .inFlight) (s.countStanding tag x.pending .measuring))) := by
  have hx' : (atTaking s).exchange? tag = some x := hx
  have hnone : (atTaking s).completeAll x.pending allBays = atTaking s := completeAll_none allBays hd
  rw [exec_cancel ha ht, completePending_eq hx', hnone]
  simp only [State.decideCancel, hx', State.cancelExchange, ho]
  rfl

/-- The finals that a CANCEL hands over, in bay order. -/
def cancelPassFinals (tag : Tag) (S : BaySet) (s : State) : List Result :=
  allBays.flatMap fun b => if inSet S b then cancelFinals tag s b else []

theorem cancelPassFinals_mem (h : r ∈ cancelPassFinals tag S s) : r.tag = tag := by
  obtain ⟨b, -, hb⟩ := List.mem_flatMap.mp h
  split at hb
  · exact (cancelFinals_mem hb).2
  · exact absurd hb List.not_mem_nil

/-- Every pending bay that holds one step has a final among them. -/
theorem cancelPassFinals_has (hb : inSet S b = true) (h : HoldsOne tag (s.bay b)) :
    ∃ r ∈ cancelPassFinals tag S s, r.bay = b := by
  obtain ⟨-, -, -, hne⟩ := cancelAt_eq h
  obtain ⟨r, hr⟩ := List.exists_mem_of_ne_nil _ hne
  refine ⟨r, List.mem_flatMap.mpr ⟨b, mem_allBays b, ?_⟩, (cancelFinals_mem hr).1⟩
  rw [if_pos hb]
  exact hr

/-- What a CANCEL does where every pending bay holds one step of the exchange. -/
structure Cancelled (tag : Tag) (x : Exchange) (s t : State) : Prop where
  clb : t.clb = (handOvers (cancelPassFinals tag x.pending s) s).1.clb
  exchanges : t.exchanges = (handOvers (cancelPassFinals tag x.pending s) s).1.exchanges.map fun x' =>
    if x'.tag = tag then { x' with cancelled := true } else x'
  record : ∃ x', t.exchange? tag = some x' ∧ x'.cancelled = true ∧ x'.pending = 0
    ∧ (x.pending ≠ 0 → x'.state = .draining)
    ∧ x'.target = x.target ∧ x'.reported = x.reported ∧ x'.text = x.text
  bays : ∀ b, inSet x.pending b = true → StepCancelled tag (s.bay b) (t.bay b)
  others : ∀ b, inSet x.pending b = false → t.bay b = s.bay b
  atu : t.atu = s.atu
  groups : t.groups = s.groups
  slc : t.slc = s.slc

theorem cancelled_spec (hx : s.exchange? tag = some x)
    (hone : ∀ b, inSet x.pending b = true → HoldsOne tag (s.bay b)) :
    Cancelled tag x s (s.cancelled tag x.pending) := by
  obtain ⟨hex, hclb, hslc, hatu, hgroups⟩ :=
    cancel_pass (s := s) (S := x.pending) (tag := tag) allBays (List.nodup_finRange 24) fun b _ => hone b
  have hbay := forBays_bay (S := x.pending) (s := s) (f := fun b s => s.cancelAt tag b)
    (R := fun y z => HoldsOne tag y → StepCancelled tag y z)
    (fun b b' s hne => cancelAt_other hne) (fun b s => cancelAt_bay)
  change (s.forBays x.pending _).exchanges = (handOvers (cancelPassFinals tag x.pending s) s).1.exchanges
    at hex
  change (s.forBays x.pending _).clb = (handOvers (cancelPassFinals tag x.pending s) s).1.clb at hclb
  change (s.forBays x.pending _).slc = s.slc at hslc
  change (s.forBays x.pending _).atu = s.atu at hatu
  change (s.forBays x.pending _).groups = s.groups at hgroups
  unfold State.cancelled
  generalize s.forBays x.pending (fun b s => s.cancelAt tag b) = w at *
  refine ⟨hclb, ?_, ?_, fun b hb => (hbay b).2 hb (hone b hb), fun b hb => (hbay b).1 hb, hatu, hgroups,
    hslc⟩
  · rw [← hex]
    rfl
  · obtain ⟨x', hx', h2, h3, h4, h5, h6, h7⟩ :=
      handOvers_record (rs := cancelPassFinals tag x.pending s) hx fun r => cancelPassFinals_mem
    have hzero : x'.pending = 0 := baySet_eq_zero.mpr fun b => by
      rw [Bool.eq_false_iff, ne_eq, h6]
      rintro ⟨hb, hall⟩
      obtain ⟨r, hr, hrb⟩ := cancelPassFinals_has hb (hone b hb)
      exact hall r hr hrb
    have hfound : (w.modExchange tag fun x => { x with cancelled := true }).exchange? tag
        = some { x' with cancelled := true } := by
      have hmod := exchange?_modExchange (s := w) (t := tag) (u := tag)
        (f := fun x : Exchange => { x with cancelled := true }) fun _ => rfl
      rw [exchange?_of_exchanges hex, hx', Option.map_some, if_pos (exchange?_tag hx')] at hmod
      exact hmod
    refine ⟨_, hfound, rfl, hzero, fun hne => h7 ?_ hzero, h3, h4, h5⟩
    rintro hnil
    refine hne (baySet_eq_zero.mpr fun b => Bool.eq_false_iff.mpr fun hb => ?_)
    obtain ⟨r, hr, -⟩ := cancelPassFinals_has hb (hone b hb)
    rw [hnil] at hr
    exact absurd hr List.not_mem_nil

/-- Settles O41: the windows that are due complete first, and then each pending bay's one step ends with
its final, in bay order. -/
theorem cancelEndsThePendingSteps : Obligations.CancelEndsThePendingSteps := by
  intro tag s ha ht u none'
  refine ⟨exec_cancel_unknown ha ht, fun x hx hd hp => exec_cancel_draining ha ht hx hd hp,
    fun x v hx hv => ?_, fun x hx ho hd hone => ?_⟩
  · rw [run_completions] at hv
    obtain rfl : s.completeAll x.pending allBays = v := by injection hv
    exact cancel_after_completions ha ht hx
  · intro finals
    have he := exec_cancel_opened ha ht hx ho hd
    have hu : u.exchange? tag = some x := hx
    obtain ⟨hclb, hex, hrec, hbays, hothers, hatu, hgroups, hslc⟩ := cancelled_spec hu hone
    have hfin : cancelPassFinals tag x.pending u = finals := rfl
    obtain ⟨-, ex, ec⟩ := handOvers_congr (rs := finals) (s := s) (v := u) rfl rfl
    rw [hfin, ec] at hclb
    rw [hfin, ex] at hex
    change exec (.cancel tag []) s = .next ((u.cancelled tag x.pending).answer 0x0A tag .ok _) at he
    generalize u.cancelled tag x.pending = w at *
    have hcount (A : BayId → Bool) (k : Standing)
        (h : ∀ b, inSet x.pending b = true → decide ((s.bay b).standing tag = k) = A b) :
        s.countStanding tag x.pending k = (allBays.filter fun b => inSet x.pending b && A b).length := by
      refine congrArg List.length (List.filter_congr fun b _ => ?_)
      cases hb : inSet x.pending b with
      | false => rfl
      | true => rw [h b hb]
    have hq := hcount (fun b => (s.bay b).places.any (Place.isStepOf tag)) .queued fun b hb =>
      (standing_spec (hone b hb)).1
    have hf := hcount (fun b => inFlightOf tag (s.bay b) && !decide ((s.bay b).link = .measuring)) .inFlight
      fun b hb => (standing_spec (hone b hb)).2.1
    have hm := hcount (fun b => inFlightOf tag (s.bay b) && decide ((s.bay b).link = .measuring)) .measuring
      fun b hb => (standing_spec (hone b hb)).2.2.1
    simp only [← Bool.and_assoc] at hf hm
    refine ⟨_, _, _, _, he, ?_, hq, hf, hm, ?_, hclb, hex, hrec, fun b hb => ?_, hothers, hatu, hgroups⟩
    · rw [Answered, answer_answers, hslc]
      rfl
    · rw [hq, hf, hm]
      refine parts_length allBays fun b => ?_
      cases hb : inSet x.pending b with
      | false => rfl
      | true =>
        obtain ⟨-, -, -, hin⟩ := standing_spec (hone b hb)
        rw [hin]
        cases (s.bay b).places.any (Place.isStepOf tag) <;>
          cases decide ((s.bay b).link = .measuring) <;> rfl
    · obtain ⟨h1, h2, h3, h4, h5, h6, h7, h8⟩ := hbays b hb
      -- In the statement the clauses from the flight slot on stand under the filter's `fun k`, so the
      -- filter's condition carries them; they hold of every pending bay.
      refine ⟨h1, h2, h3.trans (List.filter_congr fun k _ => ?_)⟩
      rw [Bool.eq_iff_iff, decide_eq_true_iff]
      exact ⟨fun h => ⟨h, h4, h5, h6, h7, h8⟩, fun h => h.1⟩

end Sys2Proof.Machine
end
